-- ==== Sys2Proof/Word.lean ====
section
/-! DEFINITION. The plain types of the Nafeld NS64 station: bytes, versions, numbers of stations and regions, and time
(spec/00_scope.md, Conventions). -/

namespace Sys2Proof

/-- One byte of a frame, of a region or of a host record. -/
abbrev Byte := BitVec 8

/-- The 16-bit version of a replica; versions wrap (00, Versions). -/
abbrev Version := BitVec 16

/-- The 8-bit claim number of a CLAIM (R1, R4). -/
abbrev ClaimNumber := BitVec 8

/-- A station number, 0 to 15 (00, Numbers and names). -/
abbrev Station := Fin 16

/-- A region number, 0 to 63 (00, Numbers and names). -/
abbrev Region := Fin 64

/-- The number of a DIR frame: group k holds regions 8k to 8k + 7 and is named by its first region 8k (R121, R128). -/
abbrev Group := Fin 8

/-- The number of a transfer part, 0 to 7 (R75 to R77). -/
abbrev Part := Fin 8

/-- An instant or a duration, in nanoseconds (00, Time: every quantity of the manual is a whole number of them). -/
abbrev Time := Nat

end Sys2Proof
end

