-- ==== Sys2Proof/Syntax.lean ====
section
/-! DEFINITION. The commands of the station: one constructor of `Instr` per row of spec/opcode_table.json, and the frames
of the line by their named fields (spec/07_the_nafeld_line.md, 7.2).

Every command carries the instant `t` at which it happens (log 1). -/

namespace Sys2Proof

/-- The name of one claim: the claimant's station number and the claim number (R4). -/
structure Claim where
  station : Station
  number  : ClaimNumber
  deriving DecidableEq, Repr

/-- The reason field of an OBJECT (7.2). -/
inductive ObjectReason where
  | held | settling | claimed | budget
  deriving DecidableEq, Repr

/-- The state field of a PRESENCE (7.2). -/
inductive PresenceState where
  | member | leaving
  deriving DecidableEq, Repr

/-- The fields of an UPDATE as the replica sees it (R55). The length is the number of data bytes; the mask is present
exactly when the masked flag is set. -/
structure Update where
  region     : Region
  version    : Version
  offset     : Byte
  mask       : Option (BitVec 32)
  closeAfter : Bool
  data       : List Byte
  deriving DecidableEq, Repr

/-- What a DIR entry shows of the responder's directory entry (R128). -/
inductive DirShown where
  | free
  | claimed (claimant : Claim)
  | held (owner : Station)
  | settling
  deriving DecidableEq, Repr

/-- One of the eight entries of a DIR frame (R128; 7.2). -/
structure DirField where
  shown     : DirShown
  lastOwner : Option Station
  version   : Version
  deriving DecidableEq, Repr

/-- The fields of a REFRESH-DATA or SNAP part: the requester or joiner it is meant for, the region, the version, the part
number and its bytes (7.2). -/
structure PartField where
  peer    : Station
  region  : Region
  version : Version
  part    : Part
  data    : List Byte
  deriving DecidableEq, Repr

/-- A frame of the line, less its sender, which the header carries (7.2). -/
inductive Frame where
  | presence (state : PresenceState) (heldCount : Byte)
  | claim (region : Region) (number : ClaimNumber)
  | object (claim : Claim) (region : Region) (reason : ObjectReason) (owner : Station) (version : Version)
  | update (u : Update)
  | renew (region : Region)
  | release (region : Region) (finalVersion : Version)
  | refreshReq (region : Region)
  | refreshData (p : PartField)
  | joinReq
  | dir (joiner : Station) (group : Group) (entries : List DirField)
  | snap (p : PartField)
  | syncEnd (joiner : Station)
  | leave
  deriving DecidableEq, Repr

/-- The two transmit queues of the LIU (R154). -/
inductive QueueId where
  | reply | originated
  deriving DecidableEq, Repr

/-- The commands the station takes, one constructor per row of spec/opcode_table.json, in the table's order. -/
inductive Instr where
  -- power and the host's transactions
  | powerOn (t : Time)
  | nreset (t : Time)
  | configure (t : Time) (station leaseCode openWaitLimit notifyMask : Byte)
  | status (t : Time)
  | statusCompletionPoint (t : Time)
  | putCommand (t : Time) (bytes : List Byte)
  | getCompletion (t : Time)
  | getCompletionCompletionPoint (t : Time)
  | readImage (t : Time) (region offset : Byte) (length : BitVec 16)
  | readRegion (t : Time) (region : Byte)
  | takeChanges (t : Time)
  | takeChangesCompletionPoint (t : Time)
  | abort (t : Time)
  | abortAll (t : Time)
  | attach (t : Time)
  | detach (t : Time)
  | resync (t : Time)
  | readCounters (t : Time) (clear : Byte)
  | readCountersCompletionPoint (t : Time)
  | unassignedTransaction (t : Time) (code : Byte)
  | transactionEnd (t : Time)
  -- the command unit
  | openRegion (t : Time)
  | closeRegion (t : Time)
  | renewRegion (t : Time)
  | writeRegion (t : Time)
  | repairRegion (t : Time)
  | copy (t : Time)
  | fill (t : Time)
  | scan (t : Time)
  | unknownKind (t : Time)
  | cancelledRecord (t : Time)
  | scanGroup (t : Time)
  | postingSlotMove (t : Time)
  | openWaitDeadlineExpiry (t : Time)
  -- arrivals of good frames
  | claimArrival (t : Time) (sender : Station) (region : Region) (number : ClaimNumber)
  | objectArrival (t : Time) (sender : Station) (claim : Claim) (region : Region) (reason : ObjectReason)
      (owner : Station) (version : Version)
  | updateArrival (t : Time) (sender : Station) (u : Update)
  | renewArrival (t : Time) (sender : Station) (region : Region)
  | releaseArrival (t : Time) (sender : Station) (region : Region) (finalVersion : Version)
  | presenceArrival (t : Time) (sender : Station) (state : PresenceState) (heldCount : Byte)
  | refreshReqArrival (t : Time) (sender : Station) (region : Region)
  | refreshDataArrival (t : Time) (sender : Station) (p : PartField)
  | joinReqArrival (t : Time) (sender : Station)
  | dirArrival (t : Time) (sender : Station) (joiner : Station) (group : Group) (entries : List DirField)
  | snapArrival (t : Time) (sender : Station) (p : PartField)
  | syncEndArrival (t : Time) (sender : Station) (joiner : Station)
  | leaveArrival (t : Time) (sender : Station)
  -- the line
  | faultyFrameEnd (t : Time)
  | lineActivityDeferral (t : Time) (activityEnd : Time)
  | accessInstant (t : Time)
  | collision (t : Time)
  | jamEnd (t : Time)
  | waitingPlacingRequest (t : Time) (queue : QueueId)
  -- deadlines
  | confirmationExpiry (t : Time) (region : Region)
  | leaseExpiry (t : Time) (region : Region)
  | settleExpiry (t : Time) (region : Region)
  | ownerSideExpiry (t : Time) (region : Region)
  | overheardClaimExpiry (t : Time) (region : Region)
  | budgetEntryRemoval (t : Time)
  | objectionDeadlineExpiry (t : Time)
  | partDeadlineExpiry (t : Time)
  | refreshTimerExpiry (t : Time)
  | presenceTimerExpiry (t : Time)
  | listenTimerExpiry (t : Time)
  | absenceDeadlineExpiry (t : Time) (station : Station)
  | isolationTimerExpiry (t : Time)
  | gapDeadlineExpiry (t : Time)
  | renewalDeadlineExpiry (t : Time)
  | repairRequest (t : Time)
  | powerBelowOperatingRange (t : Time)
  deriving DecidableEq, Repr

end Sys2Proof
end

