-- ==== Sys2Proof/WellFormed.lean ====
section
/-! DEFINITION. Well-formed commands. The types of the operands already bound stations, regions, groups and parts; what is
left are the form checks of R141 that a frame's fields can still fail, and the shape of the host's commands. -/

namespace Sys2Proof

/-- R141, UPDATE: the length is 1 to 32 and offset + length is not over 256. -/
def Update.goodForm (u : Update) : Bool :=
  1 ≤ u.data.length && u.data.length ≤ 32 && u.offset.toNat + u.data.length ≤ 256

/-- R141, DIR entry: a SETTLING entry has its last-owner-present flag set. -/
def DirField.goodForm (e : DirField) : Bool :=
  match e.shown with
  | .settling => e.lastOwner.isSome
  | _ => true

/-- 7.2: a part carries 32 data bytes. -/
def PartField.goodForm (p : PartField) : Bool := p.data.length == 32

/-- The form checks of R141 on the fields that the frame's types leave open. A frame that fails one is faulty and does
not arrive (R139). -/
def Frame.goodForm : Frame → Bool
  | .presence _ heldCount => heldCount.toNat ≤ 64
  | .claim _ _ => true
  | .object _ _ reason _ version => reason != .claimed || version.toNat ≤ 255
  | .update u => u.goodForm
  | .renew _ => true
  | .release _ _ => true
  | .refreshReq _ => true
  | .refreshData p => p.goodForm
  | .joinReq => true
  | .dir _ _ entries => entries.length == 8 && entries.all DirField.goodForm
  | .snap p => p.goodForm
  | .syncEnd _ => true
  | .leave => true

/-- The frame whose good arrival a command is, if it is one. -/
def Instr.arrivingFrame : Instr → Option (Station × Frame)
  | .claimArrival _ s r n => some (s, .claim r n)
  | .objectArrival _ s c r why o v => some (s, .object c r why o v)
  | .updateArrival _ s u => some (s, .update u)
  | .renewArrival _ s r => some (s, .renew r)
  | .releaseArrival _ s r v => some (s, .release r v)
  | .presenceArrival _ s p h => some (s, .presence p h)
  | .refreshReqArrival _ s r => some (s, .refreshReq r)
  | .refreshDataArrival _ s p => some (s, .refreshData p)
  | .joinReqArrival _ s => some (s, .joinReq)
  | .dirArrival _ s j g es => some (s, .dir j g es)
  | .snapArrival _ s p => some (s, .snap p)
  | .syncEndArrival _ s j => some (s, .syncEnd j)
  | .leaveArrival _ s => some (s, .leave)
  | _ => none

/-- The codes 1 to 13 are assigned (10.7). -/
def assignedCode (code : Byte) : Bool := 1 ≤ code.toNat && code.toNat ≤ 13

/-- Data bytes that a command record of this kind and length field carries: the length for a WRITE of length 1 to 32,
otherwise none (R202). -/
def recordDataLength (kind : Byte) (length : Nat) : Nat :=
  if kind.toNat = 4 ∧ 1 ≤ length ∧ length ≤ 32 then length else 0

/-- The bytes of a PUT-COMMAND hold a whole command record, no more: 15 bytes and the data (R202; 10.7). -/
def recordComplete (bytes : List Byte) : Bool :=
  15 ≤ bytes.length &&
    bytes.length == 15 + recordDataLength (bytes.getD 1 0) (256 * (bytes.getD 4 0).toNat + (bytes.getD 5 0).toNat)

/-- A command is well-formed when the event it names can happen as its operands say: an arriving frame is of good form
(R141), a PUT-COMMAND sends one whole record (R202), an unassigned code is not one of 10.7's, and activity on the line ends
after it begins. -/
def Instr.wellFormed : Instr → Bool
  | .putCommand _ bytes => recordComplete bytes
  | .unassignedTransaction _ code => !assignedCode code
  | .lineActivityDeferral t activityEnd => t ≤ activityEnd
  | i =>
    match i.arrivingFrame with
    | some (_, f) => f.goodForm
    | none => true

end Sys2Proof
end

