-- ==== Sys2Proof/Config.lean ====
section
/-! DEFINITION. The fixed quantities of the NS64 (spec/00_scope.md, Fixed quantities) and the choices the manual leaves
open, each an opaque constant that nothing can evaluate. -/

namespace Sys2Proof.Config

/-- A time of `n` microseconds. -/
def microseconds (n : Nat) : Time := 1000 * n

/-- A time of `n` milliseconds. -/
def milliseconds (n : Nat) : Time := 1000000 * n

/-- One bit at 8 Mbit/s, in nanoseconds (R138). -/
def bitTime : Time := 125

/-- 250 µs from a CLAIM's arrival (R5). -/
def confirmationInterval : Time := microseconds 250

/-- 150 µs from a CLAIM's arrival (R158). -/
def objectionInterval : Time := microseconds 150

/-- The rolling window of the claim budget, 1,000 µs (R39). -/
def budgetWindow : Time := microseconds 1000

/-- Six CLAIMs in the window (R38). -/
def budgetLimit : Nat := 6

/-- 300 µs (R5). -/
def settleInterval : Time := microseconds 300

/-- The owner-side deadline lies this much before the lease's end: 1 ms (R5). -/
def ownerGuard : Time := milliseconds 1

/-- The lease of a lease code: 20 ms for code 0, otherwise the code times 5 ms (R5, R99). -/
def leaseOf (code : Nat) : Time := if code = 0 then milliseconds 20 else milliseconds (5 * code)

/-- 8 ms without transmission (R106, R108). -/
def presenceInterval : Time := milliseconds 8

/-- A joiner's allowed silence, 8 ms (R123). -/
def renewalInterval : Time := milliseconds 8

/-- 30 ms without a good frame (R104 to R106). -/
def absenceTimeout : Time := milliseconds 30

/-- 25 ms (R100). -/
def listenPeriod : Time := milliseconds 25

/-- 2 ms from the echo of a REFRESH-REQ (R91). -/
def refreshTimeout : Time := milliseconds 2

/-- The third refresh timeout makes the region LOST (R92). -/
def refreshAttemptLimit : Nat := 3

/-- 2 ms from an accepted part (R84). -/
def partTimeout : Time := milliseconds 2

/-- 5 ms without a sync frame (R122, R124). -/
def syncGapTimeout : Time := milliseconds 5

/-- Four attempt JOIN-REQs (R125). -/
def joinAttemptLimit : Nat := 4

/-- Eight consecutive transmit failures (R152). -/
def transmitFailureLimit : Nat := 8

/-- 50 ms of isolation (R117). -/
def isolationTime : Time := milliseconds 50

/-- 16 regions STALE or LOST (R54). -/
def resyncThreshold : Nat := 16

/-- Frames in each transmit queue (R154). -/
def transmitQueueLimit : Nat := 8

/-- Records in the command queue (R202). -/
def commandQueueLimit : Nat := 8

/-- Records in the completion queue (R203). -/
def completionQueueLimit : Nat := 16

/-- Jobs in the outgoing job list (R72). -/
def jobLimit : Nat := 4

/-- Entries of the catch-up list (R80). -/
def catchUpLimit : Nat := 16

/-- Bytes of a region (R50). -/
def regionSize : Nat := 256

/-- Bytes of a transfer part (R76). -/
def partSize : Nat := 32

/-- 1.5 µs of idle line (R145). -/
def quietGap : Time := 1500

/-- One deferral slot, 1 µs (R145). -/
def deferralSlot : Time := microseconds 1

/-- The time a frame of `k` bytes, header, payload and CRC counted, occupies the line: k + 1 µs (R138). -/
def frameTime (k : Nat) : Time := microseconds (k + 1)

/-- DESIGN CHOICE (log 8), safe: the manual leaves open which of a BUDGET objection and a state objection to one CLAIM is
placed first (R44, R142). A free value: the n-th such choice, yes for the BUDGET objection first. -/
opaque budgetObjectionFirst : Nat → Bool

/-- DESIGN CHOICE (log 9), safe: the manual leaves open whether the end of the frame without arrival is reported to its
producer before or after the eighth consecutive failure isolates the station (R151, R152). A free value: the n-th such
choice, yes for the report first. -/
opaque reportBeforeIsolation : Nat → Bool

/-- DESIGN CHOICE (log 56), safe: the manual does not say what SDO shifts out while nCS is low and no byte of the link byte, an
answer or the read buffer is due (R197). A free value: of the transaction whose nCS fell at this instant, by the number of
bytes that the host has sent after byte 0. -/
opaque sdoUnstated : Time → Nat → Byte

end Sys2Proof.Config
end

