-- ==== Sys2Proof/Machine/State.lean ====
section
/-! DEFINITION. The state of one NS64 station as plain data, block by block (spec/00_scope.md, Block overview), and the
state after reset. A piece of state that the rules make equal to other state is stored once and read through a function of
Machine/Ops.lean (log 20). -/

namespace Sys2Proof.Machine

/-! ## Outcomes -/

/-- Why the machine stops with a fault. The manual gives no such case: every row of the table has an effect in every state,
so the type has no constructor and no command raises a fault. -/
inductive Fault where
  deriving DecidableEq, Repr

/-- Why a command is refused. -/
inductive Refusal where
  /-- Raised only by an arm of `exec` whose command has no meaning yet; safe, since nothing then follows. No arm of this
  model raises it. -/
  | notModelled (mnemonic : String)
  deriving DecidableEq, Repr

/-! ## Directory controller (R1) -/

inductive SettleReason where
  | released | closedByUpdate | expired | ownerAbsent | ownerLeft
  deriving DecidableEq, Repr

/-- The owner's side of a holding (R1): present only when this station is the owner, and then either the owner-side deadline
runs or the holding has lapsed. -/
inductive OwnerSide where
  | notOwn
  | running (deadline : Time)
  | lapsed
  deriving DecidableEq, Repr

/-- The state of a directory entry with exactly the fields that R1 says are present in it. -/
inductive EntryState where
  | unknown
  | free
  | claimed (claimant : Claim) (confirmation : Time)
  | held (owner : Station) (lease : Time) (side : OwnerSide)
  | settling (reason : SettleReason) (settle : Time)
  deriving DecidableEq, Repr

/-- An overheard claim and its adoption deadline (R1, R16). -/
structure Overheard where
  claim    : Claim
  adoption : Time
  deriving DecidableEq, Repr

/-- A directory entry (R1). -/
structure Entry where
  state     : EntryState
  lastOwner : Option Station
  overheard : Option Overheard
  deriving DecidableEq, Repr

/-! ## Claim budget unit (R38) -/

structure BudgetEntry where
  claim   : Claim
  arrival : Time
  deriving DecidableEq, Repr

/-! ## Replica controller (R50) -/

/-- 256 bytes: the offsets whose byte is not 0, rising. What an unlisted offset reads as is 0, the content of every region
after reset (R51). -/
abbrev Memory := List Host.Cell

inductive Condition where
  | current | stale | unsynced | lost
  deriving DecidableEq, Repr

/-- A replica record (R50), less its in-reception field, which the reception record gives (R80; log 20). -/
structure Replica where
  condition : Condition
  version   : Version
  content   : Memory
  attempts  : Nat
  deriving DecidableEq, Repr

/-! ## Line interface unit (R144, R154) -/

inductive TransferKind where
  | refresh | snap
  deriving DecidableEq, Repr

/-- Where the data of a queued UPDATE comes from (R57): fixed when the command places it, or read from a replica when the
frame begins. -/
inductive UpdateSource where
  | bytes (data : List Byte)
  | replica (region : Region) (offset length : Nat)
  deriving DecidableEq, Repr

/-- A queued frame with the fields its producer gave and the keys of its withdrawal (R154). Fields filled at the beginning
(R149) are not in it. A CLAIM has no claim number while its placing request waits (R9). A RELEASE says whether a CLOSE
placed it; a JOIN-REQ whether it is a renewal; an OBJECT whether it is a BUDGET objection, and when its CLAIM arrived. -/
inductive Item where
  | object (claim : Claim) (region : Region) (budget : Bool) (claimArrival : Time)
  | partZero (kind : TransferKind) (peer : Station) (region : Region)
  | part (kind : TransferKind) (fields : PartField)
  | dir (joiner : Station) (group : Group)
  | syncEnd (joiner : Station)
  | claim (region : Region) (number : Option ClaimNumber)
  | update (region : Region) (offset : Nat) (mask : Option (BitVec 32)) (closeAfter : Bool) (source : UpdateSource)
  | renew (region : Region)
  | release (region : Region) (byClose : Bool)
  | refreshReq (region : Region)
  | joinReq (renewal : Bool)
  | presence
  | leave
  deriving DecidableEq, Repr

/-- A place of a transmit queue. `marked`: in flight at a station-state entry that withdrew its queue, so that it is not
retried (R157), or a frame in flight of an emptied job list (R72). `orphan`: in flight when its transfer job was dropped, so
that no further frame of the job follows it (R72, R79, R127). -/
structure Queued where
  item   : Item
  marked : Bool
  orphan : Bool := false
  deriving DecidableEq, Repr

/-- The transmitter (R144, R150). The frame in flight is the head of the queue it names (R154). A jam holds the instant at which
its 16 bit times have been sent. -/
inductive Transmitter where
  | off
  | sending (queue : QueueId) (frame : Frame)
  | jamming (ends : Time)
  deriving DecidableEq, Repr

/-- The LIU. `collisionEnd` is the model's own: after this station's jam, the end of the activity that the jam belongs to, as
far as it is known (R143, R150; log 41). -/
structure Liu where
  transmitter       : Transmitter
  collisionEnd      : Option Time
  activityEnd       : Time
  lastSender        : Option Station
  fallback          : Bool
  failures          : Nat
  reply             : List Queued
  originated        : List Queued
  replyWaiting      : List Item
  originatedWaiting : List Item
  deriving DecidableEq, Repr

/-! ## Transfer unit (R72 to R92) -/

/-- How far a refresh job has come: not yet served, or part p is the one that is placed or on the line. -/
inductive RefreshStage where
  | waiting
  | at (part : Part)
  deriving DecidableEq, Repr

/-- How far a sync job has come (R72, R128, R129): not yet active; DIR frame k placed; the next region (64 for SYNC-END)
waits while a refresh job is served (R78); part p of a region placed; SYNC-END placed. -/
inductive SyncStage where
  | waiting
  | dir (group : Group)
  | paused (next : Nat)
  | snapshot (region : Region) (part : Part)
  | ending
  deriving DecidableEq, Repr

inductive Job where
  | refresh (region : Region) (requester : Station) (stage : RefreshStage)
  | sync (joiner : Station) (stage : SyncStage)
  deriving DecidableEq, Repr

/-- The transfer buffer when it is not empty (R76). -/
structure TransferBuffer where
  region  : Region
  version : Version
  content : Memory
  deriving DecidableEq, Repr

/-- One entry of the catch-up list (R85): the UPDATE with its sender. -/
structure CatchUp where
  sender : Station
  update : Update
  deriving DecidableEq, Repr

/-- An open reception record (R80). -/
structure Reception where
  region   : Region
  source   : Station
  kind     : TransferKind
  version  : Version
  next     : Nat
  buffer   : Memory
  catchUp  : List CatchUp
  deadline : Time
  deriving DecidableEq, Repr

inductive RepairStage where
  | idle | requestQueued | awaitingPart0
  deriving DecidableEq, Repr

structure Transfer where
  jobs         : List Job
  buffer       : Option TransferBuffer
  reception    : Option Reception
  repairList   : List Region
  repairStage  : RepairStage
  refreshTimer : Option Time
  deriving DecidableEq, Repr

/-! ## Membership controller (R96 to R121) -/

inductive StationState where
  | unconfigured | listening | joining | member | leaving | detached | isolated
  deriving DecidableEq, Repr

inductive FaultCause where
  | none | duplicateNumber | transmitFailures | joinFailed | resyncThreshold
  deriving DecidableEq, Repr

inductive Presence where
  | absent | joining | member
  deriving DecidableEq, Repr

/-- A membership entry (R103). -/
structure MemberEntry where
  presence  : Presence
  lastHeard : Option Time
  absence   : Option Time
  deriving DecidableEq, Repr

inductive LeaveCause where
  | detach | resync
  deriving DecidableEq, Repr

/-- The join record (R121). -/
structure JoinRecord where
  attempt   : Nat
  responder : Option Station
  runSet    : List Group
  gap       : Option Time
  renewal   : Option Time
  deriving DecidableEq, Repr

structure Membership where
  station        : StationState
  table          : Vector MemberEntry 16
  presenceTimer  : Option Time
  listenTimer    : Option Time
  isolationTimer : Option Time
  faultCause     : FaultCause
  memberHeard    : Bool
  leaveCause     : Option LeaveCause
  join           : Option JoinRecord
  deriving DecidableEq, Repr

/-! ## Command unit (R161) and its records (R162; 10.7) -/

/-- A command record by its bytes (10.7). -/
structure CommandRecord where
  tag          : Byte
  kind         : Byte
  region       : Byte
  offset       : Byte
  length       : BitVec 16
  flags        : Byte
  secondRegion : Byte
  secondOffset : Byte
  value        : Byte
  matchMask    : Byte
  mask         : BitVec 32
  data         : List Byte
  deriving DecidableEq, Repr

/-- The fifteen statuses (10.7). -/
inductive Status where
  | done | already | invalid | notMember | notOwner | replicaNotCurrent | busyRegion | budgetFull | contended | objected
  | waitExpired | leaseLost | staleSource | aborted | left
  deriving DecidableEq, Repr

/-- The reason field (R162). -/
inductive Reason where
  | none | held | settling | claimed | budget | notFree | listFull | contended
  deriving DecidableEq, Repr

/-- A completion record (R162). -/
structure Completion where
  tag       : Byte
  kind      : Byte
  status    : Status
  reason    : Reason
  version   : Version
  count     : Nat
  position  : Int
  found     : Bool
  exhausted : Bool
  disturbed : Bool
  released  : Bool
  deriving DecidableEq, Repr

/-- The wait of an OPEN (R166, R171): without WAIT; with its open wait deadline; or with the deadline expired. -/
inductive WaitClock where
  | noWait
  | till (deadline : Time)
  | expired
  deriving DecidableEq, Repr

/-- The progress of the command in execution: the stages of an OPEN (8.2) with its wait, its last reason and the reason of
the WAITING stage before the present attempt (R179); the chunk of a COPY or FILL with the bytes done (R185); the progress
of a SCAN (R194). The stage of a frame at the LIU is read from the LIU's queues. -/
inductive Progress where
  | openWaiting (clock : WaitClock) (last : Reason)
  | openClaimQueued (clock : WaitClock) (before : Reason)
  | openClaimPending (clock : WaitClock)
  | close
  | renew
  | write
  | chunk (source : Option Region) (done offset sourceOffset length : Nat) (disturbed : Bool)
  | scan (next : Int) (unexamined : Nat) (disturbed : Bool)
  deriving DecidableEq, Repr

/-- The command in execution: its record, its region (the destination of a COPY), whether an abort stands on it, and its
progress. -/
structure Running where
  record   : CommandRecord
  region   : Region
  abort    : Bool
  progress : Progress
  deriving DecidableEq, Repr

/-- The three states of the command unit (R161). -/
inductive CommandUnit where
  | idle
  | executing (run : Running)
  | posting (record : Completion)
  deriving DecidableEq, Repr

/-! ## Host link (R197 to R210) -/

/-- A written, and so locked, configuration record (R99). -/
structure Configuration where
  station       : Station
  leaseCode     : Fin 51
  openWaitLimit : Byte
  notifyChanges : Bool
  notifyState   : Bool
  deriving DecidableEq, Repr

/-- A record in the command queue with its cancelled mark (R202). -/
structure QueuedCommand where
  record    : CommandRecord
  cancelled : Bool
  deriving DecidableEq, Repr

/-- The six counters, in the order of R209. -/
structure Counters where
  frameErrors         : BitVec 16
  txFailures          : BitVec 16
  foreignUpdates      : BitVec 16
  versionGaps         : BitVec 16
  objectionsWithdrawn : BitVec 16
  transfersAbandoned  : BitVec 16
  deriving DecidableEq, Repr

/-- The answer codes of 10.7. -/
inductive Answer where
  | ok | full | empty | locked | badStation | badLease | wrongState
  deriving DecidableEq, Repr

/-- The transaction in progress, with what its completion point needs: whether the state-changed flag was set again after
a STATUS's taking point (R200); whether a GET-COMPLETION copied a record (R203); the taken set of a TAKE-CHANGES and the
regions marked as added again (R206); the counters a clearing READ-COUNTERS copied (R209). `noEffect`: an unassigned code,
or a request not yet taken, for which SDO shifts 0; `nothingToComplete`: a transaction taken that has no effect left to
make. -/
inductive Transaction where
  | none
  | noEffect
  | nothingToComplete
  | statusTaken (setAgain : Bool)
  | completionTaken
  | changesTaken (taken again : List Region)
  | countersTaken (copy : Counters)
  deriving DecidableEq, Repr

structure HostLink where
  config          : Option Configuration
  commandQueue    : List QueuedCommand
  completionQueue : List Completion
  changeSet       : List Region
  stateChanged    : Bool
  counters        : Counters
  readBuffer      : List Byte
  transaction     : Transaction
  answer          : Option Answer
  deriving DecidableEq, Repr

/-! ## The station -/

/-- One NS64 station. `now`, `lastReset`, `powered`, `freeCount` and `pending` are the model's own fields (INVENTORY.md), as are
`Liu.collisionEnd` and `Queued.orphan`. `lastReset` is the instant of the last power-on or reset, which ended the transaction in
progress (R197; log 23). -/
structure State where
  now          : Time
  lastReset    : Time
  powered      : Bool
  directory    : Vector Entry 64
  claimCounter : ClaimNumber
  budget       : List BudgetEntry
  replicas     : Vector Replica 64
  transfer     : Transfer
  membership   : Membership
  liu          : Liu
  unit         : CommandUnit
  host         : HostLink
  freeCount    : Nat
  pending      : List Instr
  deriving DecidableEq, Repr

/-! ## Reset -/

/-- An UNKNOWN entry with no optional field (R2). -/
def Entry.unknown : Entry := { state := .unknown, lastOwner := none, overheard := none }

/-- A FREE entry with no last owner (R2). -/
def Entry.fresh : Entry := { state := .free, lastOwner := none, overheard := none }

/-- R51: UNSYNCED, version 0, every content byte 0, refresh attempts 0. -/
def Replica.reset : Replica := { condition := .unsynced, version := 0, content := [], attempts := 0 }

/-- R96: ABSENT with no last-heard time. -/
def MemberEntry.absent : MemberEntry := { presence := .absent, lastHeard := none, absence := none }

/-- R209: every counter 0. -/
def Counters.zero : Counters :=
  { frameErrors := 0, txFailures := 0, foreignUpdates := 0, versionGaps := 0, objectionsWithdrawn := 0,
    transfersAbandoned := 0 }

/-- R72, R76, R80, R90, R91. -/
def Transfer.empty : Transfer :=
  { jobs := [], buffer := none, reception := none, repairList := [], repairStage := .idle, refreshTimer := none }

/-- R96, R97, R121. -/
def Membership.reset : Membership :=
  { station := .unconfigured, table := Vector.replicate 16 MemberEntry.absent, presenceTimer := none,
    listenTimer := none, isolationTimer := none, faultCause := .none, memberHeard := false, leaveCause := none,
    join := none }

/-- R144, R154, R155. `activityEnd` is the instant of the reset (log 7). -/
def Liu.reset (t : Time) : Liu :=
  { transmitter := .off, collisionEnd := none, activityEnd := t, lastSender := none, fallback := true, failures := 0, reply := [],
    originated := [], replyWaiting := [], originatedWaiting := [] }

/-- R198, R199, R200, R202, R203, R205, R209. -/
def HostLink.reset : HostLink :=
  { config := none, commandQueue := [], completionQueue := [], changeSet := [], stateChanged := false,
    counters := Counters.zero, readBuffer := [], transaction := .none, answer := none }

/-- The station after a power-on or RESET-pin reset at instant `t` (R2, R4, R40, R51, R96, R144, R161). -/
def State.resetAt (t : Time) : State :=
  { now := t, lastReset := t, powered := true, directory := Vector.replicate 64 Entry.unknown, claimCounter := 0, budget := [],
    replicas := Vector.replicate 64 Replica.reset, transfer := Transfer.empty, membership := Membership.reset,
    liu := Liu.reset t, unit := .idle, host := HostLink.reset, freeCount := 0, pending := [] }

/-- The station right after reset. -/
def State.reset : State := State.resetAt 0

end Sys2Proof.Machine
end

