-- ==== Sys2Proof/Machine/Memory.lean ====
section
/-! DEFINITION. The bytes of a region, a buffer's bytes, and version arithmetic (R50, R55, R60; 00, Versions). -/

namespace Sys2Proof.Machine

/-- The byte at offset `a`; an unlisted offset reads 0 (R51). -/
def readByte : Memory → Nat → Byte
  | [], _ => 0
  | (k, b) :: rest, a => if k = a then b else readByte rest a

/-- `m` with byte `b` at offset `a`, in canonical form: writing 0 removes the cell. -/
def writeByte : Memory → Nat → Byte → Memory
  | [], a, b => if b = 0 then [] else [(a, b)]
  | (k, v) :: rest, a, b =>
    if a < k then (if b = 0 then (k, v) :: rest else (a, b) :: (k, v) :: rest)
    else if a = k then (if b = 0 then rest else (a, b) :: rest)
    else (k, v) :: writeByte rest a b

/-- The canonical form: offsets below 256, strictly rising, no byte equal to what an unlisted offset reads as. -/
def Memory.wf : Memory → Bool
  | [] => true
  | [(k, b)] => k < 256 && b != 0
  | (k, b) :: (k', b') :: rest => k < k' && b != 0 && Memory.wf ((k', b') :: rest)

/-- The `n` bytes from offset `a`. -/
def readBytes (m : Memory) (a n : Nat) : List Byte := (List.range n).map fun i => readByte m (a + i)

/-- `m` with the bytes `bs` from offset `a`. -/
def writeBytes : Memory → Nat → List Byte → Memory
  | m, _, [] => m
  | m, a, b :: bs => writeBytes (writeByte m a b) (a + 1) bs

/-- Whether data byte `i` is written: every byte without a mask, otherwise those whose mask bit is set (R55). -/
def maskSelects (mask : Option (BitVec 32)) (i : Nat) : Bool :=
  match mask with
  | none => true
  | some m => m.getLsbD i

/-- `m` after data byte `i`, `i + 1`, … are written at `a + i`, `a + i + 1`, … where the mask selects them (R60). -/
def writeSelected (mask : Option (BitVec 32)) (a : Nat) : Memory → Nat → List Byte → Memory
  | m, _, [] => m
  | m, i, b :: bs =>
    writeSelected mask a (if maskSelects mask i then writeByte m (a + i) b else m) (i + 1) bs

/-- The next version after `v` (00, Versions). -/
def nextVersion (v : Version) : Version := v + 1

/-- `w` is after `v` when (w − v) mod 65536 lies between 1 and 32767 (00, Versions). -/
def versionAfter (w v : Version) : Bool := 1 ≤ (w - v).toNat && (w - v).toNat ≤ 32767

/-- A replica after an UPDATE is applied to it: the selected bytes, and the frame's version (R52, R60). -/
def Replica.applied (rep : Replica) (u : Update) : Replica :=
  { rep with content := writeSelected u.mask u.offset.toNat rep.content 0 u.data, version := u.version }

/-- The 16-bit field of two bytes, the most significant first (R138, R197). -/
def word16 (hi lo : Byte) : BitVec 16 := hi ++ lo

/-- The bytes of a 16-bit field, the most significant first (R138, R197). -/
def bytes16 (v : BitVec 16) : List Byte := [v.extractLsb' 8 8, v.extractLsb' 0 8]

/-- The bytes of the 32-bit mask of an UPDATE on the line, the most significant first. DEDUCED (log 55): R138 says so of 16-bit
fields. -/
def bytes32 (v : BitVec 32) : List Byte :=
  [v.extractLsb' 24 8, v.extractLsb' 16 8, v.extractLsb' 8 8, v.extractLsb' 0 8]

/-- A set of numbers kept in ascending order, each at most once: `a` joined to it (R205, R121). -/
def insertAscending {n : Nat} (a : Fin n) : List (Fin n) → List (Fin n)
  | [] => [a]
  | b :: rest => if a < b then a :: b :: rest else if a = b then b :: rest else b :: insertAscending a rest

end Sys2Proof.Machine
end

