-- ==== Sys2Proof/Machine/Operands.lean ====
section
/-! DEFINITION. The operands of the host's commands: the command record and the completion record of 10.7, the codes of
10.7, and the checks of R165 on a command's fields. -/

namespace Sys2Proof.Machine

/-- The eight command kinds (10.7). -/
inductive CommandKind where
  | open | close | renew | write | repair | copy | fill | scan
  deriving DecidableEq, Repr

/-- The kind code of a command record; other values are unknown kinds (10.7). -/
def kindOf (code : Byte) : Option CommandKind :=
  match code.toNat with
  | 1 => some .open
  | 2 => some .close
  | 3 => some .renew
  | 4 => some .write
  | 5 => some .repair
  | 6 => some .copy
  | 7 => some .fill
  | 8 => some .scan
  | _ => none

/-- The region that a field names, when it is 0 to 63. -/
def regionOf (b : Byte) : Option Region := if h : b.toNat < 64 then some ⟨b.toNat, h⟩ else none

/-- The command record of a PUT-COMMAND's bytes (10.7), when all its bytes were sent; bytes beyond are ignored (R197, R202). -/
def parseRecord (bs : List Byte) : Option CommandRecord :=
  let length := word16 (bs.getD 4 0) (bs.getD 5 0)
  let n := recordDataLength (bs.getD 1 0) length.toNat
  if 15 + n ≤ bs.length then
    some { tag := bs.getD 0 0, kind := bs.getD 1 0, region := bs.getD 2 0, offset := bs.getD 3 0, length := length,
           flags := bs.getD 6 0, secondRegion := bs.getD 7 0, secondOffset := bs.getD 8 0, value := bs.getD 9 0,
           matchMask := bs.getD 10 0, mask := word16 (bs.getD 11 0) (bs.getD 12 0) ++ word16 (bs.getD 13 0) (bs.getD 14 0),
           data := (bs.drop 15).take n }
  else none

/-- Flag bit 0 (10.7), read by OPEN only (R165). -/
def CommandRecord.wait (c : CommandRecord) : Bool := c.flags.getLsbD 0

/-- Flag bit 1 (10.7). -/
def CommandRecord.closeAfter (c : CommandRecord) : Bool := c.flags.getLsbD 1

/-- Flag bit 2 (10.7). -/
def CommandRecord.masked (c : CommandRecord) : Bool := c.flags.getLsbD 2

/-- Flag bit 3 (10.7). -/
def CommandRecord.descending (c : CommandRecord) : Bool := c.flags.getLsbD 3

/-- R165, order 2, for a WRITE's fields beside its region. -/
def CommandRecord.writeFieldsValid (c : CommandRecord) : Bool :=
  1 ≤ c.length.toNat && c.length.toNat ≤ 32 && c.offset.toNat + c.length.toNat ≤ 256 &&
    (!c.masked || (List.range c.length.toNat).any fun i => c.mask.getLsbD i)

/-- R182: length 1 to 256, and both ranges within their regions. -/
def CommandRecord.copyFieldsValid (c : CommandRecord) : Bool :=
  1 ≤ c.length.toNat && c.length.toNat ≤ 256 && c.secondOffset.toNat + c.length.toNat ≤ 256 &&
    c.offset.toNat + c.length.toNat ≤ 256

/-- R183: length 1 to 256, and the range within the region. -/
def CommandRecord.fillFieldsValid (c : CommandRecord) : Bool :=
  1 ≤ c.length.toNat && c.length.toNat ≤ 256 && c.offset.toNat + c.length.toNat ≤ 256

/-- R194: count 1 to 256 and a range within the region, in the direction of the scan. -/
def CommandRecord.scanFieldsValid (c : CommandRecord) : Bool :=
  1 ≤ c.length.toNat && c.length.toNat ≤ 256 &&
    (if c.descending then c.length.toNat ≤ c.offset.toNat + 1 else c.offset.toNat + c.length.toNat ≤ 256)

/-! ## Codes (10.7) -/

def Status.code : Status → Byte
  | .done => 0 | .already => 1 | .invalid => 2 | .notMember => 3 | .notOwner => 4 | .replicaNotCurrent => 5
  | .busyRegion => 6 | .budgetFull => 7 | .contended => 8 | .objected => 9 | .waitExpired => 10 | .leaseLost => 11
  | .staleSource => 12 | .aborted => 13 | .left => 14

def Reason.code : Reason → Byte
  | .none => 0 | .held => 1 | .settling => 2 | .claimed => 3 | .budget => 4 | .notFree => 5 | .listFull => 6
  | .contended => 7

def Answer.code : Answer → Byte
  | .ok => 0 | .full => 1 | .empty => 2 | .locked => 3 | .badStation => 4 | .badLease => 5 | .wrongState => 6

def StationState.code : StationState → Byte
  | .unconfigured => 0 | .listening => 1 | .joining => 2 | .member => 3 | .leaving => 4 | .detached => 5 | .isolated => 6

def FaultCause.code : FaultCause → Byte
  | .none => 0 | .duplicateNumber => 1 | .transmitFailures => 2 | .joinFailed => 3 | .resyncThreshold => 4

def Condition.code : Condition → Byte
  | .current => 0 | .stale => 1 | .unsynced => 2 | .lost => 3

def SettleReason.code : SettleReason → Byte
  | .released => 1 | .closedByUpdate => 2 | .expired => 3 | .ownerAbsent => 4 | .ownerLeft => 5

/-- The reason that an objection gives to an OPEN (R162). -/
def objectionReason : ObjectReason → Reason
  | .held => .held
  | .settling => .settling
  | .claimed => .claimed
  | .budget => .budget

/-- The status with which an OPEN without WAIT ends for a reason (R166 to R169). -/
def Reason.refusal : Reason → Status
  | .notFree => .busyRegion
  | .listFull => .budgetFull
  | .contended => .contended
  | _ => .objected

/-- A yes/no field as one bit of a flags byte. -/
def flagBit (b : Bool) (i : Nat) : Byte := if b then BitVec.ofNat 8 (2 ^ i) else 0

/-- The eleven bytes of a completion record (10.7); the position is two's complement. DESIGN CHOICE (log 57): bits 4 to 7 of
byte 10, which 10.7 does not name, are 0. -/
def Completion.bytes (c : Completion) : List Byte :=
  [c.tag, c.kind, c.status.code, c.reason.code] ++ bytes16 c.version ++ bytes16 (BitVec.ofNat 16 c.count) ++
    bytes16 (BitVec.ofInt 16 c.position) ++
    [flagBit c.found 0 ||| flagBit c.exhausted 1 ||| flagBit c.disturbed 2 ||| flagBit c.released 3]

/-! ## The chunks of a COPY or FILL (R184, R185) -/

/-- The distance of the source and destination offsets (R184). -/
def CommandRecord.distance (c : CommandRecord) : Nat :=
  max (c.offset.toNat - c.secondOffset.toNat) (c.secondOffset.toNat - c.offset.toNat)

/-- R184: the ranges overlap when source and destination are the same region and the distance is less than the length. -/
def CommandRecord.overlap (c : CommandRecord) (source : Option Region) (destination : Region) : Bool :=
  source == some destination && c.distance < c.length.toNat

/-- R184: the least of 32, the remaining count and, for overlapping ranges a distance of 1 or more, the distance. -/
def chunkLength (c : CommandRecord) (source : Option Region) (destination : Region) (done : Nat) : Nat :=
  let remaining := c.length.toNat - done
  let least := min 32 remaining
  if c.overlap source destination && 1 ≤ c.distance then min least c.distance else least

/-- R184: where the chunk of length `len` begins within the ranges, after `done` bytes: at `done` ascending, at
remaining − length descending. A FILL ascends (R183). -/
def chunkStart (c : CommandRecord) (source : Option Region) (done len : Nat) : Nat :=
  if c.descending && source.isSome then c.length.toNat - done - len else done

end Sys2Proof.Machine
end

