-- ==== Sys2Proof/Machine/Flags.lean ====
section
/-! DEFINITION. The host link's flags: the counters, the change set, the state-changed flag, the link byte and ATTN
(R197, R200, R205, R206, R209, R210). -/

namespace Sys2Proof.Machine

/-- A counter raised by one; at 65535 it stays (R209). A counter otherwise changes only at a clearing READ-COUNTERS and at a reset
(R212). -/
def raiseCounter (c : BitVec 16) : BitVec 16 := if c = 65535 then c else c + 1

/-- The state with its host link changed. -/
def State.withHost (s : State) (f : HostLink → HostLink) : State := { s with host := f s.host }

def HostLink.withCounters (h : HostLink) (f : Counters → Counters) : HostLink := { h with counters := f h.counters }

def State.raiseFrameErrors (s : State) : State :=
  s.withHost fun h => h.withCounters fun c => { c with frameErrors := raiseCounter c.frameErrors }

def State.raiseTxFailures (s : State) : State :=
  s.withHost fun h => h.withCounters fun c => { c with txFailures := raiseCounter c.txFailures }

def State.raiseForeignUpdates (s : State) : State :=
  s.withHost fun h => h.withCounters fun c => { c with foreignUpdates := raiseCounter c.foreignUpdates }

def State.raiseVersionGaps (s : State) : State :=
  s.withHost fun h => h.withCounters fun c => { c with versionGaps := raiseCounter c.versionGaps }

def State.raiseObjectionsWithdrawn (s : State) : State :=
  s.withHost fun h => h.withCounters fun c => { c with objectionsWithdrawn := raiseCounter c.objectionsWithdrawn }

def State.raiseTransfersAbandoned (s : State) : State :=
  s.withHost fun h => h.withCounters fun c => { c with transfersAbandoned := raiseCounter c.transfersAbandoned }

/-- The present counters less the copied ones (R209). -/
def Counters.less (c d : Counters) : Counters :=
  { frameErrors := c.frameErrors - d.frameErrors, txFailures := c.txFailures - d.txFailures,
    foreignUpdates := c.foreignUpdates - d.foreignUpdates, versionGaps := c.versionGaps - d.versionGaps,
    objectionsWithdrawn := c.objectionsWithdrawn - d.objectionsWithdrawn,
    transfersAbandoned := c.transfersAbandoned - d.transfersAbandoned }

/-- The twelve counter bytes of a READ-COUNTERS, in the order of R209. -/
def Counters.bytes (c : Counters) : List Byte :=
  bytes16 c.frameErrors ++ bytes16 c.txFailures ++ bytes16 c.foreignUpdates ++ bytes16 c.versionGaps ++
    bytes16 c.objectionsWithdrawn ++ bytes16 c.transfersAbandoned

/-- The mark 'added again' that an addition of `r` makes during a TAKE-CHANGES (R206). -/
def Transaction.markAgain (t : Transaction) (r : Region) : Transaction :=
  match t with
  | .changesTaken taken again => if r ∈ taken then .changesTaken taken (insertAscending r again) else t
  | _ => t

/-- Region `r` is added to the change set (R205, R206). -/
def State.addChange (s : State) (r : Region) : State :=
  s.withHost fun h =>
    { h with changeSet := insertAscending r h.changeSet, transaction := h.transaction.markAgain r }

/-- Every region of a list is added to the change set. -/
def State.addChanges (s : State) (rs : List Region) : State := rs.foldl State.addChange s

/-- A new station state sets the state-changed flag; during a STATUS it is then set again after the taking point (R200). -/
def State.setStateChanged (s : State) : State :=
  s.withHost fun h =>
    { h with
      stateChanged := true
      transaction := match h.transaction with
        | .statusTaken _ => .statusTaken true
        | t => t }

/-- The link byte that the station shifts out while byte 0 is clocked in (R197). It has no effect on any state. -/
def State.linkByte (s : State) : Byte :=
  flagBit (!s.host.completionQueue.isEmpty) 0 ||| flagBit (!s.host.changeSet.isEmpty) 1 |||
    flagBit s.host.stateChanged 2 ||| flagBit (s.host.commandQueue.length == Config.commandQueueLimit) 3 |||
    flagBit s.host.config.isSome 4

/-- While the record is empty both notify bits count as no (R199). -/
def State.notifyChanges (s : State) : Bool := s.host.config.elim false (·.notifyChanges)

def State.notifyState (s : State) : Bool := s.host.config.elim false (·.notifyState)

/-- ATTN is asserted, driven low (R210). While power is below the operating range ATTN is high (00, Electrical note). -/
def State.attnAsserted (s : State) : Bool :=
  s.powered &&
    (!s.host.completionQueue.isEmpty || (!s.host.changeSet.isEmpty && s.notifyChanges) ||
      (s.host.stateChanged && s.notifyState))

/-- The byte that SDO shifts out `i` whole bytes after the taking point of the transaction in progress (R197, R198, 10.7):
the answer byte where a request has one, otherwise the read buffer, and 0 beyond the last byte. None while no transaction
has been taken: SDO is not driven while nCS is high, and State.sdoShifted says what it shifts before the taking point (R197;
logs 23, 56). -/
def State.sdoByte (s : State) (i : Nat) : Option Byte :=
  match s.host.transaction, s.host.answer with
  | .none, _ => none
  | .noEffect, _ => some 0
  | _, some a => some (if i = 0 then a.code else 0)
  | _, none => some (s.host.readBuffer.getD i 0)

end Sys2Proof.Machine
end

