-- ==== Sys2Proof/Machine/Ops.lean ====
section
/-! DEFINITION. The named operations over the station's registers, tables and queues: the region records, the directory and
budget lists as other blocks read them, the LIU's queues with placing, withdrawal and waiting requests (R154 to R157), and
the ending of a command (R161). -/

namespace Sys2Proof.Machine

/-! ## The records of the region table and the membership table -/

def State.entry (s : State) (r : Region) : Entry := s.directory[r]

def State.setEntry (s : State) (r : Region) (e : Entry) : State := { s with directory := s.directory.set r e }

def State.replica (s : State) (r : Region) : Replica := s.replicas[r]

def State.setReplica (s : State) (r : Region) (rep : Replica) : State := { s with replicas := s.replicas.set r rep }

def State.member (s : State) (x : Station) : MemberEntry := s.membership.table[x]

def State.setMember (s : State) (x : Station) (e : MemberEntry) : State :=
  { s with membership := { s.membership with table := s.membership.table.set x e } }

def State.withMembership (s : State) (f : Membership → Membership) : State := { s with membership := f s.membership }

def State.withTransfer (s : State) (f : Transfer → Transfer) : State := { s with transfer := f s.transfer }

def State.withLiu (s : State) (f : Liu → Liu) : State := { s with liu := f s.liu }

/-- The station state (R96). -/
def State.station (s : State) : StationState := s.membership.station

/-- The station's number, from the configuration record; none while it is empty (R96). -/
def State.self (s : State) : Option Station := s.host.config.map (·.station)

def State.isSelf (s : State) (x : Station) : Bool := s.self == some x

/-- The lease of the configuration record (R5). Before a configuration every entry is UNKNOWN, and no rule uses it (log 31). -/
def State.leaseTime (s : State) : Time := Config.leaseOf (s.host.config.elim 0 fun c => c.leaseCode.val)

/-- The clock at a command's instant; it never runs backward (log 1). -/
def State.advance (s : State) (t : Time) : State := { s with now := max s.now t }

/-- Station `x` is this joiner's responder (R121). -/
def State.isResponder (s : State) (x : Station) : Bool := s.membership.join.any fun j => j.responder == some x

/-! ## What the station states allow -/

/-- JOINING, MEMBER and LEAVING: the LIU begins frames (R144), BUDGET objections are raised (R40), and the presence holding
check is made (R109). -/
def StationState.transmits : StationState → Bool
  | .joining | .member | .leaving => true
  | .unconfigured | .listening | .detached | .isolated => false

/-- The states that keep the membership table (R104) and the budget list (R40). -/
def StationState.listens : StationState → Bool
  | .listening | .joining | .member | .leaving => true
  | .unconfigured | .detached | .isolated => false

/-- MEMBER and LEAVING: full part in the line; state objections are raised (R14), refresh requests and JOIN-REQs answered
(R73, R126). -/
def StationState.participates : StationState → Bool
  | .member | .leaving => true
  | .unconfigured | .listening | .joining | .detached | .isolated => false

/-- The states in which the duplicate-number check is made (R119). -/
def StationState.checksNumber : StationState → Bool
  | .listening | .joining | .member | .leaving | .isolated => true
  | .unconfigured | .detached => false

/-! ## The directory as other blocks read it -/

/-- What counts as a directory change is a change of this view: state, claimant, owner, last owner, settle reason (R7). -/
inductive View where
  | unknown
  | free
  | claimed (claimant : Claim)
  | held (owner : Station)
  | settling (reason : SettleReason)
  deriving DecidableEq, Repr

def EntryState.view : EntryState → View
  | .unknown => .unknown
  | .free => .free
  | .claimed c _ => .claimed c
  | .held o _ _ => .held o
  | .settling why _ => .settling why

def Entry.view (e : Entry) : View × Option Station := (e.state.view, e.lastOwner)

def Entry.isUnknown (e : Entry) : Bool := e.state.view == .unknown

def Entry.isFree (e : Entry) : Bool := e.state.view == .free

/-- The test 'sender is owner' (R6). -/
def Entry.heldBy (e : Entry) (x : Station) : Bool := e.state.view == .held x

/-- The entry is HELD with this station as owner. -/
def State.heldByOwn (s : State) (r : Region) : Bool :=
  match (s.entry r).state with
  | .held o _ _ => s.isSelf o
  | _ => false

/-- The entry is HELD with this station as owner and lapsed no (R165, R172 to R174, R182). -/
def State.heldUnlapsed (s : State) (r : Region) : Bool :=
  match (s.entry r).state with
  | .held o _ side => s.isSelf o && side != .lapsed
  | _ => false

/-- The entry is CLAIMED with this station as claimant. -/
def State.claimedByOwn (s : State) (r : Region) : Bool :=
  match (s.entry r).state with
  | .claimed c _ => s.isSelf c.station
  | _ => false

/-- All regions in ascending order. -/
def allRegions : List Region := List.finRange 64

/-- All stations in ascending order. -/
def allStations : List Station := List.finRange 16

/-- The held count (R8). -/
def State.heldCount (s : State) : Nat := allRegions.countP s.heldByOwn

/-- The pending count (R112). -/
def State.pendingCount (s : State) : Nat := allRegions.countP s.claimedByOwn

/-- An entry of the budget list that has not reached 1,000 µs of age (R39). -/
def BudgetEntry.live (e : BudgetEntry) (now : Time) : Bool := now < e.arrival + Config.budgetWindow

/-- The count of the budget list: an entry whose age has reached 1,000 µs counts as removed (R39). -/
def State.budgetCount (s : State) : Nat := s.budget.countP fun e => e.live s.now

/-- The budget list holds fewer than six entries at this instant (R45, R46). -/
def State.budgetRoom (s : State) : Bool := s.budgetCount < Config.budgetLimit

/-! ## The replicas as other blocks read them -/

def State.isCurrent (s : State) (r : Region) : Bool := (s.replica r).condition == .current

/-- The in-reception field of a replica record (R50, R80). -/
def State.inReception (s : State) (r : Region) : Bool := s.transfer.reception.any fun rec => rec.region == r

/-- The STALE count (R54). -/
def State.staleCount (s : State) : Nat := allRegions.countP fun r => (s.replica r).condition == .stale

/-- The LOST count (R54). -/
def State.lostCount (s : State) : Nat := allRegions.countP fun r => (s.replica r).condition == .lost

/-- The sum whose rise may request a resync (R54). -/
def State.outOfStep (s : State) : Nat := s.staleCount + s.lostCount

/-! ## The LIU's queues (R154 to R157) -/

def Liu.queue (l : Liu) : QueueId → List Queued
  | .reply => l.reply
  | .originated => l.originated

def Liu.setQueue (l : Liu) (q : QueueId) (xs : List Queued) : Liu :=
  match q with
  | .reply => { l with reply := xs }
  | .originated => { l with originated := xs }

/-- The waiting placing requests of a queue, the oldest first (R155). -/
def Liu.waiting (l : Liu) : QueueId → List Item
  | .reply => l.replyWaiting
  | .originated => l.originatedWaiting

def Liu.setWaiting (l : Liu) (q : QueueId) (xs : List Item) : Liu :=
  match q with
  | .reply => { l with replyWaiting := xs }
  | .originated => { l with originatedWaiting := xs }

/-- The head of the queue is in flight. -/
def Liu.flying (l : Liu) (q : QueueId) : Bool :=
  match l.transmitter with
  | .sending q' _ => q' == q
  | .off | .jamming _ => false

/-- The frame in flight, as it stands in its queue. -/
def Liu.flight (l : Liu) : Option Queued :=
  match l.transmitter with
  | .sending q _ => (l.queue q).head?
  | .off | .jamming _ => none

/-- A matching frame is in flight. -/
def Liu.flightIs (l : Liu) (p : Item → Bool) : Bool := l.flight.any fun x => p x.item

/-- The frames left when every matching frame that has not begun is removed (R156). -/
def dropUnbegun (flying : Bool) (p : Item → Bool) (xs : List Queued) : List Queued :=
  match xs with
  | [] => []
  | x :: rest => if flying then x :: rest.filter (fun y => !p y.item) else (x :: rest).filter (fun y => !p y.item)

/-- Every matching frame that has not begun is withdrawn, and every matching waiting request given up (R155, R156). -/
def Liu.cancel (l : Liu) (q : QueueId) (p : Item → Bool) : Liu :=
  (l.setQueue q (dropUnbegun (l.flying q) p (l.queue q))).setWaiting q ((l.waiting q).filter fun i => !p i)

/-- A matching frame of the queue in flight is marked, so that it is not retried (R157, R72). -/
def Liu.markFlight (l : Liu) (q : QueueId) (p : Item → Bool) : Liu :=
  match l.flying q, l.queue q with
  | true, x :: rest => if p x.item then l.setQueue q ({ x with marked := true } :: rest) else l
  | _, _ => l

/-- A matching frame of the queue in flight belongs to a dropped job from now on (R79, R127). -/
def Liu.orphanFlight (l : Liu) (q : QueueId) (p : Item → Bool) : Liu :=
  match l.flying q, l.queue q with
  | true, x :: rest => if p x.item then l.setQueue q ({ x with orphan := true } :: rest) else l
  | _, _ => l

/-- A matching frame is queued, in flight, or waiting to be placed. -/
def Liu.holds (l : Liu) (q : QueueId) (p : Item → Bool) : Bool :=
  (l.queue q).any (fun x => p x.item) || (l.waiting q).any p

def State.cancel (s : State) (q : QueueId) (p : Item → Bool) : State := s.withLiu fun l => l.cancel q p

/-- A frame takes its place at the tail of its queue. A CLAIM takes the next claim number there (R4, R9). -/
def State.append (s : State) (q : QueueId) (i : Item) : State :=
  match i with
  | .claim r none =>
    let n := s.claimCounter + 1
    { s with
      claimCounter := n
      liu := s.liu.setQueue q (s.liu.queue q ++ [{ item := .claim r (some n), marked := false }]) }
  | _ => s.withLiu fun l => l.setQueue q (l.queue q ++ [{ item := i, marked := false }])

def State.queueRoom (s : State) (q : QueueId) : Bool := (s.liu.queue q).length < Config.transmitQueueLimit

/-- The oldest waiting request of a queue is placed, if the queue has room (R155). -/
def State.placeWaiting (s : State) (q : QueueId) : State :=
  match s.liu.waiting q with
  | [] => s
  | i :: rest => if s.queueRoom q then (s.withLiu fun l => l.setWaiting q rest).append q i else s

/-- Waiting requests are placed while the queue has room: they were made before any later placing (R155). -/
def State.placeAllWaiting (s : State) (q : QueueId) : State :=
  (s.liu.waiting q).foldl (fun s _ => s.placeWaiting q) s

/-- A producer places a frame: at the tail of its queue, or as a waiting request when the queue is full (R155). -/
def State.place (s : State) (q : QueueId) (i : Item) : State :=
  let s := s.placeAllWaiting q
  if s.queueRoom q then s.append q i else s.withLiu fun l => l.setWaiting q (l.waiting q ++ [i])

/-- An OBJECT that finds the reply queue full is not placed, and OBJECTIONS_WITHDRAWN is raised (R155). -/
def State.placeObject (s : State) (i : Item) : State :=
  let s := s.placeAllWaiting .reply
  if s.queueRoom .reply then s.append .reply i else s.raiseObjectionsWithdrawn

/-- The access timer (R144): SENDING and JAMMING as the transmitter is; otherwise WAITING while a frame is queued in a
state that transmits, and IDLE. -/
inductive AccessTimer where
  | idle | waiting | sending | jamming
  deriving DecidableEq, Repr

def State.accessTimer (s : State) : AccessTimer :=
  match s.liu.transmitter with
  | .sending _ _ => .sending
  | .jamming _ => .jamming
  | .off =>
    if s.station.transmits && !(s.liu.reply.isEmpty && s.liu.originated.isEmpty) then .waiting else .idle

/-- The line driver is on while the station transmits, and off while power is below its range (00, Electrical note). -/
def State.driverOn (s : State) : Bool := s.powered && s.liu.transmitter != .off

/-- The rank (R145). Without a last sender the flag is set; the number is used then (log 33). -/
def State.rank (s : State) (own : Station) : Nat :=
  match s.liu.fallback, s.liu.lastSender with
  | false, some last => (own.val + 15 - last.val) % 16
  | _, _ => own.val

/-- The access instant: the end of the last line activity, the quiet gap, and rank × 1 µs (R145). -/
def State.accessAt (s : State) (own : Station) : Time :=
  s.liu.activityEnd + Config.quietGap + s.rank own * Config.deferralSlot

/-! ## Kinds and keys of queued frames (R156) -/

def Item.isObjectTo (c : Claim) : Item → Bool
  | .object c' _ _ _ => c' == c
  | _ => false

def Item.isObjectToStation (x : Station) : Item → Bool
  | .object c _ _ _ => c.station == x
  | _ => false

def Item.isClaim : Item → Bool
  | .claim _ _ => true
  | _ => false

def Item.isClaimFor (r : Region) : Item → Bool
  | .claim r' _ => r' == r
  | _ => false

/-- An UPDATE or RENEW for the region. -/
def Item.isWriteFor (r : Region) : Item → Bool
  | .update r' _ _ _ _ => r' == r
  | .renew r' => r' == r
  | _ => false

def Item.isUpdateFor (r : Region) : Item → Bool
  | .update r' _ _ _ _ => r' == r
  | _ => false

def Item.isRenewFor (r : Region) : Item → Bool
  | .renew r' => r' == r
  | _ => false

def Item.isReleaseFor (r : Region) : Item → Bool
  | .release r' _ => r' == r
  | _ => false

/-- The RELEASE that a CLOSE placed. -/
def Item.isCloseRelease (r : Region) : Item → Bool
  | .release r' byClose => r' == r && byClose
  | _ => false

def Item.isRelease : Item → Bool
  | .release _ _ => true
  | _ => false

def Item.isRefreshReq : Item → Bool
  | .refreshReq _ => true
  | _ => false

def Item.isPresence : Item → Bool
  | .presence => true
  | _ => false

def Item.isJoinReq : Item → Bool
  | .joinReq _ => true
  | _ => false

def Item.isRenewal : Item → Bool
  | .joinReq renewal => renewal
  | _ => false

def Item.isLeave : Item → Bool
  | .leave => true
  | _ => false

/-- A frame of a transfer job: a part, a DIR frame or a SYNC-END (R72). -/
def Item.isJobFrame : Item → Bool
  | .partZero _ _ _ | .part _ _ | .dir _ _ | .syncEnd _ => true
  | _ => false

/-- A part of the refresh job for region `r` and requester `q`. -/
def Item.isRefreshPart (r : Region) (q : Station) : Item → Bool
  | .partZero .refresh q' r' => q' == q && r' == r
  | .part .refresh f => f.peer == q && f.region == r
  | _ => false

/-- A frame of the sync job for joiner `j`. -/
def Item.isSyncFrame (j : Station) : Item → Bool
  | .partZero .snap j' _ => j' == j
  | .part .snap f => f.peer == j
  | .dir j' _ => j' == j
  | .syncEnd j' => j' == j
  | _ => false

/-- A frame of any transfer job for station `x`. -/
def Item.isJobFrameFor (x : Station) : Item → Bool
  | .partZero _ x' _ => x' == x
  | .part _ f => f.peer == x
  | .dir x' _ => x' == x
  | .syncEnd x' => x' == x
  | _ => false

/-! ## Directory entries -/

/-- An entry is written; when its view changes and the change is to be told, the region is added to the change set (R7). -/
def State.changeEntry (s : State) (r : Region) (e : Entry) (tell : Bool) : State :=
  let changed := (s.entry r).view != e.view
  let s := s.setEntry r e
  if tell && changed then s.addChange r else s

/-- An entry is written, and the region added to the change set whatever the entry was before (R17, R22 to R24). -/
def State.tellEntry (s : State) (r : Region) (e : Entry) : State := (s.setEntry r e).addChange r

/-- The HELD state for owner `x` with its lease deadline: at the owner itself the owner-side deadline runs, 1 ms before the
lease deadline, and lapsed is no (R1, R5, R26; log 13). -/
def State.heldState (s : State) (x : Station) (lease : Time) : EntryState :=
  .held x lease (if s.isSelf x then .running (lease - Config.ownerGuard) else .notOwn)

/-- Whenever an entry leaves HELD with this station as owner, the UPDATE, RENEW and RELEASE frames for the region that have
not begun are withdrawn, and held ones given up (R32). -/
def State.withdrawHolding (s : State) (r : Region) : State :=
  s.cancel .originated fun i => i.isWriteFor r || i.isReleaseFor r

/-- An entry becomes SETTLING; its overheard claim is kept (R16, R28 to R30, R35, R109). -/
def State.settle (s : State) (r : Region) (reason : SettleReason) (lastOwner : Station) (tell : Bool) : State :=
  let own := s.heldByOwn r
  let e := { s.entry r with
    state := .settling reason (s.now + Config.settleInterval), lastOwner := some lastOwner }
  let s := s.changeEntry r e tell
  if own then s.withdrawHolding r else s

/-- A RELEASE is placed in the originated queue, or waits for a place (R31, R37, R172, R179). -/
def State.placeRelease (s : State) (r : Region) (byClose : Bool) : State := s.place .originated (.release r byClose)

/-! ## Endings of commands (R161, R162) -/

/-- The bytes done of a COPY or FILL (R184); 0 for the other commands (R162). -/
def Progress.bytesDone : Progress → Nat
  | .chunk _ done _ _ _ _ => done
  | _ => 0

/-- The DISTURBED flag of a COPY or SCAN (R191, R196). -/
def Progress.disturbed : Progress → Bool
  | .chunk source _ _ _ _ d => source.isSome && d
  | .scan _ _ d => d
  | _ => false

/-- A completion record goes to the tail of the completion queue, or into the posting slot when the queue is full (R161). -/
def State.post (s : State) (c : Completion) : State :=
  if s.host.completionQueue.length < Config.completionQueueLimit then
    { s with unit := .idle, host := { s.host with completionQueue := s.host.completionQueue ++ [c] } }
  else { s with unit := .posting c }

/-- The command in execution ends: its completion record is made and posted (R161, R162). The version is the replica's
version of its region unless the rule names another. -/
def State.endCommand (s : State) (run : Running) (status : Status) (reason : Reason := .none)
    (version : Version := (s.replica run.region).version) (count : Nat := run.progress.bytesDone) (position : Int := 0)
    (found : Bool := false) (exhausted : Bool := false) (released : Bool := false) : State :=
  s.post { tag := run.record.tag, kind := run.record.kind, status := status, reason := reason, version := version,
           count := count, position := position, found := found, exhausted := exhausted,
           disturbed := run.progress.disturbed, released := released }

/-- The command in execution goes on with new progress. -/
def State.proceed (s : State) (run : Running) (p : Progress) : State :=
  { s with unit := .executing { run with progress := p } }

/-- The frame at the LIU that the command in execution caused (R154: its producer). -/
def Running.owns (run : Running) (i : Item) : Bool :=
  match run.progress with
  | .openClaimQueued _ _ => i.isClaimFor run.region
  | .close => i.isCloseRelease run.region
  | .renew => i.isRenewFor run.region
  | .write => i.isUpdateFor run.region
  | .chunk _ _ _ _ _ _ => i.isUpdateFor run.region
  | _ => false

/-- The command's frame is in flight. -/
def State.commandFlying (s : State) (run : Running) : Bool := s.liu.flightIs run.owns

/-- The command's frame is withdrawn, or its placing request given up, unless it is in flight (R156). -/
def State.cancelCommandFrame (s : State) (run : Running) : State := s.cancel .originated run.owns

end Sys2Proof.Machine
end

