-- ==== Sys2Proof/Machine/Notices.lean ====
section
/-! DEFINITION. What each notice does to the command in execution (R164): the notices of the directory controller, the
replica controller, the LIU and the membership controller. A notice that meets no command waiting for it is ignored. -/

namespace Sys2Proof.Machine

/-- The command in execution, if there is one. -/
def State.running (s : State) : Option Running :=
  match s.unit with
  | .executing run => some run
  | .idle | .posting _ => none

/-! ## OPEN (8.2) -/

/-- An outcome that settles an attempt against the OPEN: an abort standing ends it ABORTED with the outcome's reason (R179);
without WAIT it ends with the reason's status (R166 to R168); with WAIT it returns to WAITING; after the open wait deadline
it ends WAIT_EXPIRED (R171). -/
def State.openSetback (s : State) (run : Running) (clock : WaitClock) (reason : Reason) : State :=
  if run.abort then s.endCommand run .aborted reason
  else
    match clock with
    | .noWait => s.endCommand run reason.refusal reason
    | .till _ => s.proceed run (.openWaiting clock reason)
    | .expired => s.endCommand run .waitExpired reason

/-- An attempt: the request to claim the region (R9, R166). `before` is the last reason of the WAITING stage before it,
NONE for the first (R179). -/
def State.attemptClaim (s : State) (run : Running) (clock : WaitClock) (before : Reason) : State :=
  if !(s.entry run.region).isFree then s.openSetback run clock .notFree
  else if !s.budgetRoom then s.openSetback run clock .listFull
  else (s.place .originated (.claim run.region none)).proceed run (.openClaimQueued clock before)

/-- *contended*, handed while the OPEN is in CLAIM_QUEUED (R167). -/
def State.noticeContended (s : State) (r : Region) : State :=
  match s.running with
  | some run =>
    match run.progress with
    | .openClaimQueued clock _ => if run.region = r then s.openSetback run clock .contended else s
    | _ => s
  | none => s

/-- *budget full* at the beginning check of the CLAIM (R46, R167). -/
def State.noticeBudgetFull (s : State) (r : Region) : State :=
  match s.running with
  | some run =>
    match run.progress with
    | .openClaimQueued clock _ => if run.region = r then s.openSetback run clock .listFull else s
    | _ => s
  | none => s

/-- *claim pending* at the echo of this station's CLAIM (R8, R167). -/
def State.noticeClaimPending (s : State) (r : Region) : State :=
  match s.running with
  | some run =>
    match run.progress with
    | .openClaimQueued clock _ => if run.region = r then s.proceed run (.openClaimPending clock) else s
    | _ => s
  | none => s

/-- *objected* with the reason (R168). -/
def State.noticeObjected (s : State) (r : Region) (reason : ObjectReason) : State :=
  match s.running with
  | some run =>
    match run.progress with
    | .openClaimPending clock => if run.region = r then s.openSetback run clock (objectionReason reason) else s
    | _ => s
  | none => s

/-- *confirmed* with the replica's version: the OPEN ends DONE (R168); with an abort standing the region is released and
the OPEN ends ABORTED with RELEASED yes (R179). DESIGN CHOICE (log 58): with reason NONE, also after a setback. -/
def State.noticeConfirmed (s : State) (r : Region) (version : Version) : State :=
  match s.running with
  | some run =>
    match run.progress with
    | .openClaimPending _ =>
      if run.region = r then
        if run.abort then (s.placeRelease r false).endCommand run .aborted (version := version) (released := true)
        else s.endCommand run .done (version := version)
      else s
    | _ => s
  | none => s

/-- *region not current* (R53): a WAITING OPEN (R170), a WRITE (R175), a COPY or FILL (R189) and a SCAN (R196) end. DESIGN
CHOICE (log 49): the WAITING OPEN ends with reason NONE. -/
def State.noticeRegionNotCurrent (s : State) (r : Region) : State :=
  match s.running with
  | some run =>
    match run.progress with
    | .openWaiting _ _ => if run.region = r then s.endCommand run .replicaNotCurrent else s
    | .write =>
      if run.region = r && !s.commandFlying run then (s.cancelCommandFrame run).endCommand run .replicaNotCurrent else s
    | .chunk source _ _ _ _ _ =>
      if source = some r then (s.cancelCommandFrame run).endCommand run .staleSource
      else if run.region = r then (s.cancelCommandFrame run).endCommand run .replicaNotCurrent
      else s
    | .scan next unexamined _ =>
      if run.region = r then s.endCommand run .staleSource (position := next) (count := unexamined) else s
    | .openClaimQueued _ _ | .openClaimPending _ | .close | .renew => s
  | none => s

/-- *update applied* with the sender (R60): the DISTURBED flags of a COPY's source (R191) and of a SCAN (R196). -/
def State.noticeUpdateApplied (s : State) (r : Region) (sender : Station) : State :=
  match s.running with
  | some run =>
    match run.progress with
    | .chunk (some source) done offset sourceOffset length _ =>
      if source = r && !s.isSelf sender then s.proceed run (.chunk (some source) done offset sourceOffset length true)
      else s
    | .scan next unexamined _ => if run.region = r then s.proceed run (.scan next unexamined true) else s
    | _ => s
  | none => s

/-- *left MEMBER*: every command that uses the line ends LEFT, whatever its stage (R178, R192); a SCAN goes on (R196). DESIGN
CHOICE (log 48): an OPEN ends with reason NONE after a setback too. DEDUCED (log 51): the count of a COPY or FILL is its bytes
done. -/
def State.noticeLeftMember (s : State) : State :=
  match s.running with
  | some run =>
    match run.progress with
    | .scan _ _ _ => s
    | _ => s.endCommand run .left
  | none => s

/-- *lapsed* (R31): a CLOSE, RENEW, WRITE, COPY or FILL whose frame has not begun ends LEASE_LOST (R172, R173, R175, R188);
one whose frame is in flight goes on. The frames were withdrawn by the directory controller. -/
def State.noticeLapsed (s : State) (r : Region) : State :=
  match s.running with
  | some run =>
    match run.progress with
    | .close | .renew | .write | .chunk _ _ _ _ _ _ =>
      if run.region = r && !s.commandFlying run then s.endCommand run .leaseLost else s
    | .openWaiting _ _ | .openClaimQueued _ _ | .openClaimPending _ | .scan _ _ _ => s
  | none => s

/-- The causes of *no longer held* (R164). -/
inductive HoldingEnd where
  | releaseEcho (finalVersion : Version)
  | closeAfterEcho
  | leaseExpiry
  deriving DecidableEq, Repr

/-- *no longer held* with its cause: a CLOSE ends DONE at the RELEASE's echo and LEASE_LOST at any other cause (R172); a
RENEW, WRITE, COPY or FILL whose frame has not begun ends LEASE_LOST (R173, R175, R188). -/
def State.noticeNoLongerHeld (s : State) (r : Region) (cause : HoldingEnd) : State :=
  match s.running with
  | some run =>
    if run.region = r then
      match run.progress with
      | .close =>
        match cause with
        | .releaseEcho v => s.endCommand run .done (version := v) (released := true)
        | .closeAfterEcho | .leaseExpiry => s.endCommand run .leaseLost
      | .renew | .write | .chunk _ _ _ _ _ _ => if s.commandFlying run then s else s.endCommand run .leaseLost
      | .openWaiting _ _ | .openClaimQueued _ _ | .openClaimPending _ | .scan _ _ _ => s
    else s
  | none => s

/-- *replica not current* and *source not current* at the beginning check of an UPDATE, which the LIU has withdrawn (R56,
R57): a WRITE ends REPLICA_NOT_CURRENT (R175); a COPY or FILL ends STALE_SOURCE when the refused replica is the source, and
otherwise REPLICA_NOT_CURRENT (R189). -/
def State.noticeUpdateRefused (s : State) (r : Region) (refused : Region) : State :=
  match s.running with
  | some run =>
    if run.region = r then
      match run.progress with
      | .write => s.endCommand run .replicaNotCurrent
      | .chunk source _ _ _ _ _ =>
        s.endCommand run (if source = some refused then .staleSource else .replicaNotCurrent)
      | _ => s
    else s
  | none => s

/-! ## Chunks of COPY and FILL (R184 to R187) -/

/-- The next chunk is cut and placed, the command's progress following it. The close-after flag stands on the last chunk
(R186); a FILL's data is fixed, a COPY's is read when the frame begins (R185). -/
def State.placeChunk (s : State) (run : Running) (source : Option Region) (done : Nat) (disturbed : Bool) : State :=
  let c := run.record
  let len := chunkLength c source run.region done
  let start := chunkStart c source done len
  let offset := c.offset.toNat + start
  let sourceOffset := c.secondOffset.toNat + start
  let last := len == c.length.toNat - done
  let data := match source with
    | some from_ => UpdateSource.replica from_ sourceOffset len
    | none => UpdateSource.bytes (List.replicate len c.value)
  (s.place .originated (.update run.region offset none (c.closeAfter && last) data)).proceed run
    (.chunk source done offset sourceOffset len disturbed)

/-- The echo of the command's own UPDATE: a WRITE ends DONE (R176); a COPY or FILL adds the chunk's bytes and ends DONE
(R187), ends LEASE_LOST when its holding has lapsed or gone (R188), ends ABORTED when an abort stands (R193), or places its
next chunk. DEDUCED (log 12): a lapse decides before a standing abort. -/
def State.updateEchoed (s : State) (u : Update) : State :=
  match s.running with
  | some run =>
    if run.region = u.region then
      match run.progress with
      | .write =>
        s.endCommand run .done (version := u.version) (count := run.record.length.toNat)
          (released := run.record.closeAfter)
      | .chunk source done offset sourceOffset len disturbed =>
        let done := done + len
        let run' := { run with progress := .chunk source done offset sourceOffset len disturbed }
        if run.record.length.toNat ≤ done then
          s.endCommand run' .done (version := u.version) (released := run.record.closeAfter)
        else if !s.heldUnlapsed run.region then s.endCommand run' .leaseLost
        else if run.abort then s.endCommand run' .aborted
        else s.placeChunk run' source done disturbed
      | _ => s
    else s
  | none => s

/-- The echo of the command's RENEW: DONE with lapsed no, LEASE_LOST otherwise (R173). -/
def State.renewEchoed (s : State) (r : Region) : State :=
  match s.running with
  | some run =>
    if run.region = r then
      match run.progress with
      | .renew => s.endCommand run (if s.heldUnlapsed r then .done else .leaseLost)
      | _ => s
    else s
  | none => s

/-- The end without arrival of the command's frame, which now has not begun (R151). An OPEN with an abort standing withdraws
its CLAIM and ends ABORTED (R179), and so does a CLOSE (R180). A RENEW, WRITE, COPY or FILL whose holding has lapsed or gone
withdraws its frame and ends LEASE_LOST (R173, R175, R190); with an abort standing it withdraws it and ends ABORTED (R180,
R193); otherwise the frame stays for its retry. DEDUCED (log 12): a lapse decides before a standing abort. -/
def State.commandEndWithoutArrival (s : State) (run : Running) : State :=
  match run.progress with
  | .openClaimQueued _ _ => if run.abort then (s.cancelCommandFrame run).endCommand run .aborted else s
  | .close => if run.abort then (s.cancelCommandFrame run).endCommand run .aborted else s
  | .renew | .write | .chunk _ _ _ _ _ _ =>
    if !s.heldUnlapsed run.region then (s.cancelCommandFrame run).endCommand run .leaseLost
    else if run.abort then (s.cancelCommandFrame run).endCommand run .aborted
    else s
  | .openWaiting _ _ | .openClaimPending _ | .scan _ _ _ => s

/-- An ABORT acts on the command in execution (R179, R180, R193, R196). -/
def State.abortRunning (s : State) : State :=
  match s.running with
  | some run =>
    match run.progress with
    | .openWaiting _ last => s.endCommand run .aborted last
    | .openClaimQueued _ before =>
      if s.commandFlying run then { s with unit := .executing { run with abort := true } }
      else (s.cancelCommandFrame run).endCommand run .aborted before
    | .openClaimPending _ => { s with unit := .executing { run with abort := true } }
    | .close | .renew | .write | .chunk _ _ _ _ _ _ =>
      if s.commandFlying run then { s with unit := .executing { run with abort := true } }
      else (s.cancelCommandFrame run).endCommand run .aborted
    | .scan next unexamined _ => s.endCommand run .aborted (position := next) (count := unexamined)
  | none => s

end Sys2Proof.Machine
end

