-- ==== Sys2Proof/Machine/Claims.lean ====
section
/-! DEFINITION. The directory controller and the claim budget unit at the arrivals of CLAIM, OBJECT, RENEW and RELEASE and at
their deadlines (spec/01, spec/02). -/

namespace Sys2Proof.Machine

/-! ## CLAIM arrivals (R10 to R18, R41, R42) -/

/-- This station is the authority against a CLAIM for the region: the claimant of the competing claim, the holder, or the
last owner of a settling region (R11, R12, R13). -/
def State.authority (s : State) (r : Region) : Bool :=
  match (s.entry r).state with
  | .unknown | .free => false
  | .claimed c _ => s.isSelf c.station
  | .held o _ _ => s.isSelf o
  | .settling _ _ => (s.entry r).lastOwner.any s.isSelf

/-- At the arrival of a CLAIM the directory controller queues a state objection: as the authority, in MEMBER or LEAVING, and
never to its own claim (R11 to R14; log 27). -/
def State.objectsTo (s : State) (claimant : Station) (r : Region) : Bool :=
  s.station.participates && !s.isSelf claimant && s.authority r

/-- A CLAIM of another station for a HELD or SETTLING entry without authority is noted, if no overheard claim is present
(R16). -/
def State.noteOverheard (s : State) (r : Region) (c : Claim) : State :=
  let e := s.entry r
  if s.isSelf c.station || s.authority r || e.overheard.isSome then s
  else s.setEntry r { e with overheard := some { claim := c, adoption := s.now + Config.confirmationInterval } }

/-- The directory controller at a CLAIM's arrival, by its entry (R10 to R14, R16). `echo`: the CLAIM is this station's own. -/
def State.claimAtDirectory (s : State) (c : Claim) (r : Region) (echo : Bool) : State :=
  let e := s.entry r
  let s' := if s.objectsTo c.station r then s.placeObject (.object c r false s.now) else s
  match e.state with
  | .unknown => s
  | .free =>
    s.changeEntry r { e with state := .claimed c (s.now + Config.confirmationInterval), overheard := none } (!echo)
  | .claimed _ _ => s'
  | .held _ _ _ | .settling _ _ => s'.noteOverheard r c

/-- The CLAIM finds the budget list full and this station may speak: a BUDGET objection is queued (R42, R43). -/
def State.budgetRefuses (s : State) : Bool := s.station.transmits && !s.budgetRoom

/-- The claim budget unit at a CLAIM's arrival: in the states that keep the list the CLAIM is appended while fewer than six
entries stand in it, and otherwise refused with a BUDGET objection where the station transmits (R40 to R43). Entries that
have reached 1,000 µs of age are removed (R39; log 30). The list is this station's own: it may differ from another's, and
only age mends it (R48, R49). -/
def State.claimAtBudget (s : State) (c : Claim) (r : Region) : State :=
  if s.station.listens then
    let kept := s.budget.filter fun e => e.live s.now
    if s.budgetRoom then { s with budget := kept ++ [{ claim := c, arrival := s.now }] }
    else
      let s := { s with budget := kept }
      if s.station.transmits then s.placeObject (.object c r true s.now) else s
  else s

/-- Both blocks at a CLAIM's arrival. Where both queue an objection, a free value says which is placed first (R44; log 8). -/
def State.claimAtBlocks (s : State) (c : Claim) (r : Region) (echo : Bool) : State :=
  if s.budgetRefuses && s.objectsTo c.station r then
    let first := Config.budgetObjectionFirst s.freeCount
    let s := { s with freeCount := s.freeCount + 1 }
    if first then (s.claimAtBudget c r).claimAtDirectory c r echo else (s.claimAtDirectory c r echo).claimAtBudget c r
  else (s.claimAtDirectory c r echo).claimAtBudget c r

/-- This station's CLAIM for the region waits in the originated queue and has not begun, or is held for room (R9, R18). -/
def State.ownClaimWaits (s : State) (r : Region) : Bool :=
  s.liu.holds .originated (Item.isClaimFor r) && !s.liu.flightIs (Item.isClaimFor r)

/-- A CLAIM arrival: the blocks act; at the echo the OPEN is handed *claim pending* or *contended* (R15); another station's
CLAIM takes this station's waiting CLAIM first (R9, R18). -/
def State.claimArrives (s : State) (sender : Station) (r : Region) (n : ClaimNumber) (echo : Bool) : State :=
  let wasFree := (s.entry r).isFree
  let waits := s.ownClaimWaits r
  let s := s.claimAtBlocks { station := sender, number := n } r echo
  if echo then (if wasFree then s.noticeClaimPending r else s.noticeContended r)
  else if waits then (s.cancel .originated (Item.isClaimFor r)).noticeContended r
  else s

/-! ## OBJECT arrivals (R20 to R25) -/

/-- The overheard claim of an entry is removed at an OBJECT for it (R16, R20). -/
def State.dropOverheard (s : State) (r : Region) (c : Claim) : State :=
  let e := s.entry r
  if e.overheard.any (fun o => o.claim == c) then s.setEntry r { e with overheard := none } else s

/-- The entry of a pending claim after an OBJECT that matches it, by its reason (R22 to R24). -/
def State.objectedEntry (s : State) (e : Entry) (reason : ObjectReason) (owner : Station) (version : Version) : Entry :=
  match reason with
  | .held => { e with state := s.heldState owner (s.now + s.leaseTime) }
  | .settling => { e with state := .settling .released (s.now + Config.settleInterval), lastOwner := some owner }
  | .claimed =>
    { e with
      state := .claimed { station := owner, number := version.setWidth 8 } (s.now + Config.confirmationInterval) }
  | .budget => { e with state := .free }

/-- The entry is CLAIMED with exactly this claim (R21). -/
def Entry.claimedAs (e : Entry) (c : Claim) : Bool := e.state.view == .claimed c

/-! ## Expiries (R17, R26, R30, R31, R33) -/

/-- The confirmation deadline expires: the entry becomes HELD by the claimant (R26). This station's own claim hands
*confirmed*; in LEAVING its RELEASE is placed at once (R37). -/
def State.confirm (s : State) (r : Region) (c : Claim) : State :=
  let e := s.entry r
  let own := s.isSelf c.station
  let s := s.changeEntry r { e with state := s.heldState c.station (s.now + s.leaseTime) } (!own)
  if own then
    let s := s.noticeConfirmed r (s.replica r).version
    if s.station = .leaving then s.placeRelease r false else s
  else s

/-- The adoption deadline of an overheard claim expires: the entry becomes HELD by the overheard claimant, and the region is
told even where that claimant was its owner already (R17). -/
def State.adopt (s : State) (r : Region) (o : Overheard) : State :=
  let e := s.entry r
  let own := s.heldByOwn r
  let s := s.tellEntry r { e with state := s.heldState o.claim.station (s.now + s.leaseTime), overheard := none }
  if own then s.withdrawHolding r else s

/-- The lease deadline expires: SETTLING, EXPIRED; at the owner *no longer held* (R30). -/
def State.expireLease (s : State) (r : Region) (owner : Station) : State :=
  let s := s.settle r .expired owner true
  if s.isSelf owner then s.noticeNoLongerHeld r .leaseExpiry else s

/-- The settle deadline expires: FREE, last owner and overheard claim kept (R33). -/
def State.expireSettle (s : State) (r : Region) : State :=
  s.changeEntry r { s.entry r with state := .free } true

/-- The lapse: lapsed becomes yes, queued UPDATEs and RENEWs for the region are withdrawn, *lapsed* is handed, and one
RELEASE is placed unless one is queued, in flight or waiting (R31). -/
def State.lapse (s : State) (r : Region) (owner : Station) (lease : Time) : State :=
  let s := s.setEntry r { s.entry r with state := .held owner lease .lapsed }
  let s := s.cancel .originated (Item.isWriteFor r)
  let s := s.noticeLapsed r
  if s.liu.holds .originated (Item.isReleaseFor r) then s else s.placeRelease r false

/-! ## RENEW, UPDATE and RELEASE from the owner (R27 to R29) -/

/-- The lease restarts at the arrival; at the owner's own echo, with lapsed no, so does the owner-side deadline (R27). -/
def State.restartLease (s : State) (r : Region) : State :=
  match (s.entry r).state with
  | .held o _ side =>
    let lease := s.now + s.leaseTime
    let side' := match side with
      | .running _ => OwnerSide.running (lease - Config.ownerGuard)
      | side => side
    s.setEntry r { s.entry r with state := .held o lease side' }
  | _ => s

end Sys2Proof.Machine
end

