-- ==== Sys2Proof/Machine/Replicas.lean ====
section
/-! DEFINITION. The replica controller: changes of condition, UPDATE arrivals, and the checks of a carried version
(spec/03). -/

namespace Sys2Proof.Machine

/-- A change of a replica's condition with its effects (R53, R69): the region joins the change set; entry into STALE places
it at the tail of the repair list unless it is in reception; exit from STALE takes it off; exit from CURRENT hands *region
not current* to the command unit. -/
def State.changeCondition (s : State) (r : Region) (c : Condition) : State :=
  let old := (s.replica r).condition
  if old = c then s
  else
    let s := (s.setReplica r { s.replica r with condition := c }).addChange r
    let s :=
      if c = .stale then
        if s.inReception r then s else s.withTransfer fun x => { x with repairList := x.repairList ++ [r] }
      else if old = .stale then s.withTransfer fun x => { x with repairList := x.repairList.filter (· != r) }
      else s
    if old = .current then s.noticeRegionNotCurrent r else s

/-- A CURRENT replica found out of step becomes STALE, and VERSION_GAPS is raised (R61, R66, R67, R70). -/
def State.versionGap (s : State) (r : Region) : State := (s.changeCondition r .stale).raiseVersionGaps

/-- The check of a version that an OBJECT, a RELEASE or a DIR entry carries: a CURRENT replica with another version is a
version gap; in every other condition the version is not used (R66, R67, R132). -/
def State.checkVersion (s : State) (r : Region) (v : Version) : State :=
  if s.isCurrent r && (s.replica r).version != v then s.versionGap r else s

/-- A LOST replica returns to STALE with attempts 0, at the tail of the repair list (R94). -/
def State.returnLost (s : State) (r : Region) : State :=
  if (s.replica r).condition = .lost then
    (s.setReplica r { s.replica r with attempts := 0 }).changeCondition r .stale
  else s

/-- An open reception is abandoned: the record closes, TRANSFERS_ABANDONED is raised, and a refresh region goes to the tail of
the repair list (R88). -/
def State.abandonReception (s : State) : State :=
  match s.transfer.reception with
  | none => s
  | some rec =>
    let s := s.withTransfer fun x => { x with reception := none }
    let s := s.raiseTransfersAbandoned
    match rec.kind with
    | .refresh => s.withTransfer fun x => { x with repairList := x.repairList ++ [rec.region] }
    | .snap => s

/-- An UPDATE for the region in reception is kept in the catch-up list; a 17th abandons the reception (R62, R85). -/
def State.keepForCatchUp (s : State) (sender : Station) (u : Update) : State :=
  match s.transfer.reception with
  | none => s
  | some rec =>
    if rec.catchUp.length < Config.catchUpLimit then
      s.withTransfer fun x =>
        { x with reception := some { rec with catchUp := rec.catchUp ++ [{ sender := sender, update := u }] } }
    else s.abandonReception

/-- The three answers of the directory controller to 'is the sender the owner?' (R6). -/
inductive OwnerAnswer where
  | yes | no | unknown
  deriving DecidableEq, Repr

/-- R6, from the entry as it stands at the arrival. -/
def State.ownerAnswer (s : State) (r : Region) (sender : Station) : OwnerAnswer :=
  if (s.entry r).isUnknown then .unknown else if (s.entry r).heldBy sender then .yes else .no

/-- A CURRENT replica takes an UPDATE from the owner: applied when its version is the next one (R60), a version gap otherwise
(R61). `echo`: this station is the sender, whose replica changes at the echo and not before (R68). -/
def State.updateAtCurrent (s : State) (sender : Station) (u : Update) (echo : Bool) : State :=
  let rep := s.replica u.region
  if u.version = nextVersion rep.version then
    let s := s.setReplica u.region (rep.applied u)
    let s := if echo then s else s.addChange u.region
    s.noticeUpdateApplied u.region sender
  else s.versionGap u.region

/-- The replica controller at an UPDATE's arrival, by the owner answer and the replica record (R59 to R65). It writes the replica
whole at that one instant (R71). -/
def State.updateAtReplica (s : State) (answer : OwnerAnswer) (sender : Station) (u : Update) (echo : Bool) : State :=
  match answer with
  | .unknown => s
  | .no =>
    let s := if s.isCurrent u.region then s.changeCondition u.region .stale else s
    s.raiseForeignUpdates
  | .yes =>
    if s.isCurrent u.region then s.updateAtCurrent sender u echo
    else if s.inReception u.region then s.keepForCatchUp sender u
    else if u.closeAfter then s.returnLost u.region
    else s

/-- The directory's effects of an UPDATE from the owner: the lease restarts; with close-after the entry becomes SETTLING,
CLOSED_BY_UPDATE (R28). -/
def State.updateAtDirectory (s : State) (sender : Station) (u : Update) (echo : Bool) : State :=
  let s := s.restartLease u.region
  if u.closeAfter then s.settle u.region .closedByUpdate sender (!echo) else s

/-- An UPDATE's arrival at all blocks: the owner answer first, then the directory, the replica, the command whose frame it
is, and *no longer held* (R6, R28, R59, R164; log 17). -/
def State.updateArrives (s : State) (sender : Station) (u : Update) (echo : Bool) : State :=
  let answer := s.ownerAnswer u.region sender
  let s := if answer = .yes then s.updateAtDirectory sender u echo else s
  let s := s.updateAtReplica answer sender u echo
  let s := if echo then s.updateEchoed u else s
  if echo && answer = .yes && u.closeAfter then s.noticeNoLongerHeld u.region .closeAfterEcho else s

/-- A RENEW's arrival (R27, R66, R173). -/
def State.renewArrives (s : State) (sender : Station) (r : Region) (echo : Bool) : State :=
  let s := match s.ownerAnswer r sender with
    | .yes => s.restartLease r
    | .no => s.raiseForeignUpdates
    | .unknown => s
  if echo then s.renewEchoed r else s

/-- A RELEASE's arrival: from the owner, SETTLING, RELEASED; the final version is checked, and a LOST replica returns to STALE
(R29, R34, R67, R94). -/
def State.releaseArrives (s : State) (sender : Station) (r : Region) (v : Version) (echo : Bool) : State :=
  if s.ownerAnswer r sender = .yes then
    let s := s.settle r .released sender (!echo)
    let s := (s.checkVersion r v).returnLost r
    if echo then s.noticeNoLongerHeld r (.releaseEcho v) else s
  else s

/-- An OBJECT's arrival: suppression, the overheard claim, and for a matching pending claim the change by its reason, the
version check, and *objected* at the claimant (R16, R20 to R25, R66). DESIGN CHOICE (log 42): the version check, and with it
*region not current*, comes before *objected*, so that an OPEN with WAIT goes to WAITING. -/
def State.objectArrives (s : State) (c : Claim) (r : Region) (reason : ObjectReason) (owner : Station) (v : Version) :
    State :=
  let s := s.cancel .reply (Item.isObjectTo c)
  let s := s.dropOverheard r c
  if (s.entry r).claimedAs c then
    let s := s.tellEntry r (s.objectedEntry (s.entry r) reason owner v)
    let s := match reason with
      | .held | .settling => s.checkVersion r v
      | .claimed | .budget => s
    if s.isSelf c.station then s.noticeObjected r reason else s
  else s

end Sys2Proof.Machine
end

