-- ==== Sys2Proof/Machine/Transfers.lean ====
section
/-! DEFINITION. The transfer unit: the outgoing job list with refresh and sync jobs, the reception record with installation
and catch-up, and the repair list's requests (spec/04; the sync job of spec/06). -/

namespace Sys2Proof.Machine

/-! ## The send side (R72 to R79, R126 to R129) -/

/-- The job is the one being served: its part, DIR frame or SYNC-END is placed or on the line. -/
def Job.running : Job → Bool
  | .refresh _ _ .waiting => false
  | .refresh _ _ (.at _) => true
  | .sync _ .waiting | .sync _ (.paused _) => false
  | .sync _ (.dir _) | .sync _ (.snapshot _ _) | .sync _ .ending => true

def Job.isRefresh (r : Region) (q : Station) : Job → Bool
  | .refresh r' q' _ => r' == r && q' == q
  | _ => false

def Job.isSync (j : Station) : Job → Bool
  | .sync j' _ => j' == j
  | _ => false

/-- A job done for station `x`: its requester or joiner. -/
def Job.isFor (x : Station) : Job → Bool
  | .refresh _ q _ => q == x
  | .sync j _ => j == x

def Job.isWaitingRefresh : Job → Bool
  | .refresh _ _ .waiting => true
  | _ => false

/-- The refresh job (r, q) with its stage. -/
def Job.setRefreshStage (r : Region) (q : Station) (st : RefreshStage) (job : Job) : Job :=
  if job.isRefresh r q then .refresh r q st else job

def Job.setSyncStage (j : Station) (st : SyncStage) (job : Job) : Job := if job.isSync j then .sync j st else job

def State.mapJobs (s : State) (f : Job → Job) : State := s.withTransfer fun x => { x with jobs := x.jobs.map f }

def State.removeJobs (s : State) (p : Job → Bool) : State :=
  s.withTransfer fun x => { x with jobs := x.jobs.filter fun job => !p job }

/-- A refresh job begins to be served: part 0 is placed (R75). -/
def State.startRefresh (s : State) (r : Region) (q : Station) : State :=
  (s.mapJobs (Job.setRefreshStage r q (.at 0))).place .reply (.partZero .refresh q r)

/-- The sync job for `j` goes on with region `n`, or with SYNC-END after region 63 (R75, R129). -/
def State.syncGoOn (s : State) (j : Station) (n : Nat) : State :=
  if h : n < 64 then
    (s.mapJobs (Job.setSyncStage j (.snapshot ⟨n, h⟩ 0))).place .reply (.partZero .snap j ⟨n, h⟩)
  else (s.mapJobs (Job.setSyncStage j .ending)).place .reply (.syncEnd j)

/-- When no job is being served, the head of the list becomes active (R72, R78, R128). -/
def State.serveNext (s : State) : State :=
  if s.transfer.jobs.any Job.running then s
  else
    match s.transfer.jobs with
    | .refresh r q _ :: _ => s.startRefresh r q
    | .sync j (.paused n) :: _ => s.syncGoOn j n
    | .sync j _ :: _ => (s.mapJobs (Job.setSyncStage j (.dir 0))).place .reply (.dir j 0)
    | [] => s

/-- A job ends, and the next is served. -/
def State.endJobs (s : State) (p : Job → Bool) : State := (s.removeJobs p).serveNext

/-- The frames of jobs that are dropped: those that have not begun are withdrawn and held ones given up; one in flight goes
on, and nothing follows it (R72, R79, R127). -/
def State.dropFrames (s : State) (p : Item → Bool) : State :=
  s.withLiu fun l => (l.cancel .reply p).orphanFlight .reply p

/-- Jobs are dropped with their frames, and the next is served (R79, R127). -/
def State.dropJobs (s : State) (jobs : Job → Bool) (frames : Item → Bool) : State := (s.dropFrames frames).endJobs jobs

/-- The sync job has sent region `n − 1`: a waiting refresh job is served whole first (R78; DEDUCED, log 14, also after
region 63), and otherwise the sync job goes on. -/
def State.afterRegion (s : State) (j : Station) (n : Nat) : State :=
  match s.transfer.jobs.find? Job.isWaitingRefresh with
  | some (.refresh r q _) => (s.mapJobs (Job.setSyncStage j (.paused n))).startRefresh r q
  | _ => s.syncGoOn j n

/-- Part `p` of the transfer in the buffer, for the peer it is sent to (R77). -/
def State.bufferPart (s : State) (f : PartField) (p : Part) : PartField :=
  let content := s.transfer.buffer.elim [] (·.content)
  { f with
    version := s.transfer.buffer.elim f.version (·.version)
    part := p
    data := readBytes content (Config.partSize * p.val) Config.partSize }

/-- The echo of a REFRESH-DATA part: the next part is placed, and at part 7 the job ends (R77). -/
def State.refreshPartEchoed (s : State) (f : PartField) : State :=
  if Job.refresh f.region f.peer (.at f.part) ∈ s.transfer.jobs then
    if f.part = 7 then s.endJobs (Job.isRefresh f.region f.peer)
    else
      (s.mapJobs (Job.setRefreshStage f.region f.peer (.at (f.part + 1)))).place .reply
        (.part .refresh (s.bufferPart f (f.part + 1)))
  else s

/-- The echo of a SNAP part: the next part is placed, and after part 7 the job goes on (R77, R78, R129). -/
def State.snapPartEchoed (s : State) (f : PartField) : State :=
  if Job.sync f.peer (.snapshot f.region f.part) ∈ s.transfer.jobs then
    if f.part = 7 then s.afterRegion f.peer (f.region.val + 1)
    else
      (s.mapJobs (Job.setSyncStage f.peer (.snapshot f.region (f.part + 1)))).place .reply
        (.part .snap (s.bufferPart f (f.part + 1)))
  else s

/-- The echo of DIR frame k: frame k + 1 is placed, and after frame 7 the first region (R128, R129). -/
def State.dirEchoed (s : State) (j : Station) (k : Group) : State :=
  if Job.sync j (.dir k) ∈ s.transfer.jobs then
    if k = 7 then s.syncGoOn j 0
    else (s.mapJobs (Job.setSyncStage j (.dir (k + 1)))).place .reply (.dir j (k + 1))
  else s

/-- The echo of SYNC-END ends the sync job (R129). -/
def State.syncEndEchoed (s : State) (j : Station) : State :=
  if Job.sync j .ending ∈ s.transfer.jobs then s.endJobs (Job.isSync j) else s

/-- Part 0 of the refresh job (r, q) has begun (R79): a later part is due, or its part 0 is in flight. -/
def State.partZeroBegun (s : State) (r : Region) (q : Station) : Bool :=
  s.transfer.jobs.any (fun job => job.isRefresh r q && job.running && job != .refresh r q (.at 0)) ||
    s.liu.flight.any (fun x => x.item == .partZero .refresh q r && !x.orphan)

/-- Another station's part 0 for the same region and requester drops the refresh job whose part 0 has not begun (R79). -/
def State.suppressRefresh (s : State) (f : PartField) : State :=
  if f.part = 0 && s.transfer.jobs.any (Job.isRefresh f.region f.peer) && !s.partZeroBegun f.region f.peer then
    s.dropJobs (Job.isRefresh f.region f.peer) (Item.isRefreshPart f.region f.peer)
  else s

/-- Another station's sync frame for joiner `j` drops this station's sync job for `j` before the echo of its first DIR
(R127). -/
def State.suppressSync (s : State) (j : Station) : State :=
  if s.transfer.jobs.any (fun job => job == .sync j .waiting || job == .sync j (.dir 0)) then
    s.dropJobs (Job.isSync j) (Item.isSyncFrame j)
  else s

/-- The sync job for `j` is dropped at any stage (R79, R127). -/
def State.dropSync (s : State) (j : Station) : State :=
  if s.transfer.jobs.any (Job.isSync j) then s.dropJobs (Job.isSync j) (Item.isSyncFrame j) else s

/-- Every job for station `x` is dropped, and its frames that have not begun are withdrawn (R79, R127). -/
def State.dropJobsFor (s : State) (x : Station) : State :=
  if s.transfer.jobs.any (Job.isFor x) then s.dropJobs (Job.isFor x) (Item.isJobFrameFor x) else s

/-- The lowest-numbered station other than `x` whose membership entry is MEMBER (R73, R126). -/
def State.lowestMember (s : State) (x : Station) : Option Station :=
  allStations.find? fun y => y != x && (s.member y).presence == .member

/-- The answerer of a REFRESH-REQ for region `r` from station `q`, in this station's view (R73). -/
def State.answerer (s : State) (r : Region) (q : Station) : Option Station :=
  let e := s.entry r
  let owner := match e.state with
    | .held o _ _ => if o = q then none else some o
    | _ => none
  let lastOwner := e.lastOwner.filter fun x => x != q && (s.member x).presence == .member
  if e.isUnknown then none else owner.or (lastOwner.or (s.lowestMember q))

/-- A REFRESH-REQ in MEMBER or LEAVING: the station that names itself adds a refresh job, when its replica is CURRENT, no
such job is present and the list has room (R73, R74). -/
def State.refreshRequested (s : State) (r : Region) (q : Station) : State :=
  if s.station.participates && (s.answerer r q).any s.isSelf && s.isCurrent r &&
      !s.transfer.jobs.any (Job.isRefresh r q) && s.transfer.jobs.length < Config.jobLimit then
    (s.withTransfer fun x => { x with jobs := x.jobs ++ [.refresh r q .waiting] }).serveNext
  else s

/-- A JOIN-REQ of `j` in MEMBER or LEAVING: the lowest-numbered member adds a sync job, when it has none for `j` and the list
has room (R126). -/
def State.syncRequested (s : State) (j : Station) : State :=
  if s.station.participates && !s.transfer.jobs.any (Job.isSync j) && (s.lowestMember j).any s.isSelf &&
      s.transfer.jobs.length < Config.jobLimit then
    (s.withTransfer fun x => { x with jobs := x.jobs ++ [.sync j .waiting] }).serveNext
  else s

/-- The job list is emptied with the transfer buffer; the frames of its jobs that have not begun are withdrawn, held ones
given up, and one in flight is not retried (R72, R76). -/
def State.emptyJobs (s : State) : State :=
  let s := s.withTransfer fun x => { x with jobs := [], buffer := none }
  (s.dropFrames Item.isJobFrame).withLiu fun l => l.markFlight .reply Item.isJobFrame

/-! ## The receive side (R80 to R89) -/

/-- A reception opens with part 0 (R81, R82). -/
def State.openReception (s : State) (kind : TransferKind) (source : Station) (f : PartField) : State :=
  s.withTransfer fun x =>
    { x with
      reception := some { region := f.region, source := source, kind := kind, version := f.version, next := 1,
                          buffer := writeBytes [] 0 f.data, catchUp := [],
                          deadline := s.now + Config.partTimeout } }

/-- A REFRESH-DATA part 0 opens a refresh reception under the conditions of R81: the region leaves the repair list, the
timer stops, a re-sent request is withdrawn, and the stage is IDLE. -/
def State.openRefresh (s : State) (source : Station) (f : PartField) : State :=
  if s.station.participates && s.isSelf f.peer && s.transfer.repairList.head? == some f.region &&
      s.transfer.repairStage != .idle then
    let s := s.openReception .refresh source f
    let s := s.withTransfer fun x =>
      { x with repairList := x.repairList.filter (· != f.region), repairStage := .idle, refreshTimer := none }
    s.cancel .originated Item.isRefreshReq
  else s

/-- A SNAP part 0 opens a snapshot reception under the conditions of R82: the joiner expects it while the region's entry is
installed and its replica UNSYNCED (R134). -/
def State.openSnap (s : State) (source : Station) (f : PartField) : State :=
  if s.station = .joining && s.isSelf f.peer && (s.membership.join.any fun j => j.responder == some source) &&
      !(s.entry f.region).isUnknown && (s.replica f.region).condition == .unsynced then
    s.openReception .snap source f
  else s

/-- The installation of a completed transfer (R52, R71, R86): content, version V, CURRENT, attempts 0, the region in the change set.
The record closes; its catch-up list is replayed in the same event. -/
def State.install (s : State) (rec : Reception) (content : Memory) : State :=
  let s := s.withTransfer fun x => { x with reception := none }
  let s := s.setReplica rec.region { s.replica rec.region with content := content, version := rec.version, attempts := 0 }
  (s.changeCondition rec.region .current).addChange rec.region

/-- The catch-up entries after installation of version `v` (R87): entries not after `v` are skipped, each next version is
applied, and the first other entry makes the replica STALE. -/
def State.replayCatchUp (r : Region) (v : Version) : State → List CatchUp → State
  | s, [] => s
  | s, e :: rest =>
    if !versionAfter e.update.version v then s.replayCatchUp r v rest
    else if e.update.version = nextVersion (s.replica r).version then
      ((s.setReplica r ((s.replica r).applied e.update)).addChange r).replayCatchUp r v rest
    else s.versionGap r

/-- A part at an open record (R83): accepted, abandoned, or ignored. At part 7 the transfer is installed; the catch-up
entries still to be replayed come with the state. -/
def State.partAtOpen (s : State) (rec : Reception) (kind : TransferKind) (sender : Station) (f : PartField) :
    State × List CatchUp :=
  if rec.kind = kind && rec.region = f.region && s.isSelf f.peer && rec.source = sender then
    if f.part.val = rec.next && rec.version = f.version then
      let content := writeBytes rec.buffer (Config.partSize * f.part.val) f.data
      if f.part = 7 then (s.install rec content, rec.catchUp)
      else
        (s.withTransfer fun x =>
          { x with reception := some { rec with buffer := content, next := rec.next + 1,
                                                deadline := s.now + Config.partTimeout } }, [])
    else (s.abandonReception, [])
  else (s, [])

/-- The part's sender may act on the receive side: a SNAP counts from the responder only (R130, R136). -/
def State.heeds (s : State) (kind : TransferKind) (sender : Station) : Bool :=
  match kind with
  | .refresh => true
  | .snap => s.isResponder sender

/-- The receive side at a part (R81 to R83): with the record closed only a part 0 may act; at an open record a SNAP from a
station that is no longer the responder is ignored (R130, R136). -/
def State.partReceived (s : State) (kind : TransferKind) (sender : Station) (f : PartField) : State × List CatchUp :=
  match s.transfer.reception with
  | some rec => if s.heeds kind sender then s.partAtOpen rec kind sender f else (s, [])
  | none =>
    if f.part = 0 then
      match kind with
      | .refresh => (s.openRefresh sender f, [])
      | .snap => (s.openSnap sender f, [])
    else (s, [])

/-! ## The repair side (R90 to R95) -/

/-- In MEMBER, with the stage IDLE, the record closed and the repair list not empty, a REFRESH-REQ for the head region is
placed when the originated queue has room (R91). DESIGN CHOICE (log 43): placing requests that wait at the LIU take the freed
places first. -/
def State.requestRepair (s : State) : State :=
  let s := s.placeAllWaiting .originated
  match s.transfer.repairList with
  | r :: _ =>
    if s.station = .member && s.transfer.repairStage = .idle && s.transfer.reception.isNone &&
        s.queueRoom .originated then
      (s.append .originated (.refreshReq r)).withTransfer fun x => { x with repairStage := .requestQueued }
    else s
  | [] => s

/-- The echo of the REFRESH-REQ starts the refresh timer (R91). -/
def State.refreshReqEchoed (s : State) : State :=
  if s.transfer.repairStage = .requestQueued then
    s.withTransfer fun x =>
      { x with repairStage := .awaitingPart0, refreshTimer := some (s.now + Config.refreshTimeout) }
  else s

/-- The refresh timer expires (R92): a new request at the first and second expiry, LOST at the third. -/
def State.refreshTimedOut (s : State) : State :=
  let s := s.withTransfer fun x => { x with refreshTimer := none }
  match s.transfer.repairList with
  | [] => s.withTransfer fun x => { x with repairStage := .idle }
  | r :: _ =>
    let rep := s.replica r
    let s := s.setReplica r { rep with attempts := rep.attempts + 1 }
    if rep.attempts + 1 < Config.refreshAttemptLimit then
      (s.place .originated (.refreshReq r)).withTransfer fun x => { x with repairStage := .requestQueued }
    else
      (s.changeCondition r .lost).withTransfer fun x =>
        { x with repairList := x.repairList.filter (· != r), repairStage := .idle }

/-- The repair side stops: stage IDLE, timer stopped (R95). -/
def State.stopRepair (s : State) : State :=
  s.withTransfer fun x => { x with repairStage := .idle, refreshTimer := none }

/-- The transfer unit is emptied: job list, transfer buffer, reception record, repair list, stage and timer (R72, R80, R90,
R95). -/
def State.emptyTransfer (s : State) : State :=
  (s.emptyJobs.withTransfer fun x => { x with reception := none, repairList := [] }).stopRepair

end Sys2Proof.Machine
end

