-- ==== Sys2Proof/Machine/Stations.lean ====
section
/-! DEFINITION. The membership controller: the membership table, the entries into the station states with what every block
does at them (R96 to R120), the join record (R121 to R125), and what concludes every event: a resync request (R54), the next
attempt of a waiting OPEN (R170), and the end of the releases (R112). -/

namespace Sys2Proof.Machine

/-! ## What the other blocks do at an entry (R98) -/

/-- Every directory entry becomes `e`; each region whose view changed is added to the change set (R2); where this station's
holdings end, their frames are withdrawn (R32). -/
def State.resetDirectory (s : State) (e : Entry) : State :=
  let changed := allRegions.filter fun r => (s.entry r).view != e.view
  let s := s.cancel .originated fun i =>
    allRegions.any fun r => s.heldByOwn r && (i.isWriteFor r || i.isReleaseFor r)
  let s := { s with directory := Vector.replicate 64 e }
  s.addChanges changed

/-- Every replica becomes UNSYNCED with attempts 0, version and content kept (R51); each change of condition adds the region
to the change set (R69), and *region not current* is handed for the region of a command in execution (R53). -/
def State.unsyncReplicas (s : State) : State :=
  let changed := allRegions.filter fun r => (s.replica r).condition != .unsynced
  let wasCurrent := match s.running with
    | some run => s.isCurrent run.region
    | none => false
  let s := { s with replicas := s.replicas.map fun (rep : Replica) => { rep with condition := .unsynced, attempts := 0 } }
  let s := s.addChanges changed
  match s.running with
  | some run => if wasCurrent then s.noticeRegionNotCurrent run.region else s
  | none => s

/-- Every replica becomes CURRENT at version 0 with every byte 0 (R51). -/
def State.freshReplicas (s : State) : State :=
  let changed := allRegions.filter fun r => (s.replica r).condition != .current
  let s := { s with replicas := Vector.replicate 64 { Replica.reset with condition := .current } }
  s.addChanges changed

/-- Refresh attempts become 0; the conditions stay (R51, entry into LISTENING from JOINING). -/
def State.clearAttempts (s : State) : State :=
  { s with replicas := s.replicas.map fun (rep : Replica) => { rep with attempts := 0 } }

/-- A queue is withdrawn at a station-state entry: every frame that has not begun, every waiting request; a frame in flight is
marked, but for the exempt ones (R157). -/
def State.withdrawQueue (s : State) (q : QueueId) (exempt : Item → Bool) : State :=
  s.withLiu fun l => (l.cancel q fun _ => true).markFlight q fun i => !exempt i

/-- Both transmit queues are withdrawn (R157). -/
def State.withdrawQueues (s : State) : State :=
  (s.withdrawQueue .reply fun _ => false).withdrawQueue .originated fun _ => false

/-- The new station state, handed to the host link, which sets the state-changed flag (R98, R200). -/
def State.setStation (s : State) (st : StationState) : State :=
  (s.withMembership fun m => { m with station := st }).setStateChanged

/-- The own membership entry mirrors the station state (R103); it keeps its last-heard time unless it becomes ABSENT. DESIGN
CHOICE (log 45): from the entry into JOINING or MEMBER to the first own echo there is none. -/
def State.setOwnEntry (s : State) (p : Presence) : State :=
  match s.self with
  | none => s
  | some x =>
    s.setMember x
      (match p with
        | .absent => MemberEntry.absent
        | p => { presence := p, lastHeard := (s.member x).lastHeard, absence := none })

/-- Every membership entry becomes ABSENT (R103). -/
def State.clearTable (s : State) : State :=
  s.withMembership fun m => { m with table := Vector.replicate 16 MemberEntry.absent }

/-! ## Entries into the station states -/

/-- Entry into LISTENING from UNCONFIGURED, ISOLATED or DETACHED, for 25 ms (R100, R106, R152). -/
def State.enterListening (s : State) : State :=
  let s := s.setOwnEntry .absent
  let s := s.withMembership fun m =>
    { m with listenTimer := some (s.now + Config.listenPeriod), memberHeard := false, isolationTimer := none }
  (s.withLiu fun l => { l with failures := 0 }).setStation .listening

/-- Entry into LISTENING from JOINING, after the fourth attempt (R98, R116, R125): the directory becomes UNKNOWN, the transfer
unit is emptied, both queues are withdrawn, the join record is discarded, the replicas keep their conditions (R51). -/
def State.failJoining (s : State) : State :=
  let s := s.resetDirectory Entry.unknown
  let s := s.emptyTransfer.clearAttempts.withdrawQueues
  let s := s.withMembership fun m => { m with faultCause := .joinFailed, join := none }
  s.enterListening

/-- An attempt JOIN-REQ is placed (R122): the gap deadline is removed and a queued renewal withdrawn, also when a full queue
holds the attempt as a waiting request (DESIGN CHOICE, log 59). -/
def State.placeAttempt (s : State) : State :=
  let s := s.withMembership fun m => { m with join := m.join.map fun j => { j with gap := none } }
  (s.cancel .originated Item.isRenewal).place .originated (.joinReq false)

/-- Entry into JOINING from LISTENING or LEAVING (R116, R121, R122). *left MEMBER* before *region not current*: log 50. -/
def State.enterJoining (s : State) : State :=
  let s := if s.station = .leaving then s.noticeLeftMember else s
  let s := s.setOwnEntry .joining
  let s := s.withMembership fun m =>
    { m with
      presenceTimer := none, listenTimer := none, leaveCause := none
      join := some { attempt := 1, responder := none, runSet := [], gap := none, renewal := none } }
  let s := s.withLiu fun l =>
    (l.cancel .originated Item.isPresence).markFlight .originated Item.isPresence
  let s := ((s.resetDirectory Entry.unknown).unsyncReplicas).emptyTransfer
  (s.setStation .joining).placeAttempt

/-- The alone start: entry into MEMBER with no member heard (R102). -/
def State.aloneStart (s : State) : State :=
  let s := (s.resetDirectory Entry.fresh).freshReplicas
  let s := s.withTransfer fun x => { x with reception := none, repairList := [] }
  let s := s.setOwnEntry .member
  let s := s.withMembership fun m =>
    { m with presenceTimer := some (s.now + Config.presenceInterval), listenTimer := none }
  s.setStation .member

/-- Each replica still UNSYNCED becomes STALE and goes to the tail of the repair list, in ascending order (R51, R135). -/
def State.staleUnsynced (s : State) : State :=
  (allRegions.filter fun r => (s.replica r).condition == .unsynced).foldl (fun s r => s.changeCondition r .stale) s

/-- Entry into MEMBER at SYNC-END (R116, R135). -/
def State.joined (s : State) : State :=
  let s := s.staleUnsynced.setOwnEntry .member
  let s := s.withMembership fun m =>
    { m with presenceTimer := some (s.now + Config.presenceInterval), join := none }
  s.setStation .member

/-- Entry into LEAVING (R111): the command ends LEFT, the originated queue is withdrawn but for a RELEASE in flight, the repair
stops, and one RELEASE is placed for each region held, lapsed or not, in ascending order, unless its RELEASE is in flight. -/
def State.enterLeaving (s : State) (cause : LeaveCause) : State :=
  let s := s.noticeLeftMember
  let s := (s.withdrawQueue .originated Item.isRelease).stopRepair
  let s := s.withMembership fun m => { m with leaveCause := some cause }
  let held := allRegions.filter fun r => s.heldByOwn r && !s.liu.flightIs (Item.isReleaseFor r)
  let s := held.foldl (fun s r => s.placeRelease r false) s
  s.setStation .leaving

/-- What every block does at entry into ISOLATED or DETACHED (R98, R117, R120, R137); the counters stand (R212). DESIGN CHOICE (log 50): *left MEMBER* comes
before *region not current*, so that a COPY or FILL ends LEFT. -/
def State.leaveLine (s : State) : State :=
  let s := if s.station.participates then s.noticeLeftMember else s
  let s := s.clearTable
  let s := ((s.resetDirectory Entry.unknown).unsyncReplicas).emptyTransfer
  let s := { s.withdrawQueues with budget := [] }
  let s := s.withMembership fun m => { m with presenceTimer := none, join := none }
  s.withLiu fun l => { l with failures := 0 }

/-- Entry into ISOLATED, for 50 ms: longer than the absence timeout of the stations that hear the line (R106, R117). -/
def State.enterIsolated (s : State) : State :=
  let s := s.leaveLine
  let s := s.withMembership fun m =>
    { m with isolationTimer := some (s.now + Config.isolationTime), faultCause := .transmitFailures }
  s.setStation .isolated

/-- Entry into DETACHED (R120). -/
def State.enterDetached (s : State) : State :=
  let s := s.leaveLine
  let s := s.withMembership fun m =>
    { m with listenTimer := none, isolationTimer := none, memberHeard := false, leaveCause := none }
  s.setStation .detached

/-- A good frame with this station's number that it did not transmit (R119). -/
def State.duplicateNumber (s : State) : State :=
  if s.station.checksNumber then
    (s.withMembership fun m => { m with faultCause := .duplicateNumber }).enterDetached
  else s

/-! ## The join (R125) -/

/-- The join fails: a restart with the next attempt, or after the fourth the station enters LISTENING (R125). `keep`: whether
the responder stays in the record. -/
def State.joinFails (s : State) (keep : Bool) : State :=
  match s.membership.join with
  | none => s
  | some j =>
    if j.attempt < Config.joinAttemptLimit then
      let j' := { j with attempt := j.attempt + 1, responder := if keep then j.responder else none }
      (s.withMembership fun m => { m with join := some j' }).placeAttempt
    else s.failJoining

/-! ## Departure of another station (R35, R36, R105, R107) -/

/-- A region's entry at the notice that station `x` is absent or has left (R35, R36). -/
def State.departRegion (x : Station) (reason : SettleReason) (s : State) (r : Region) : State :=
  let s :=
    match (s.entry r).state with
    | .held o _ _ => if o = x then s.settle r reason x true else s
    | .claimed c _ => if c.station = x then s.changeEntry r { s.entry r with state := .free } true else s
    | _ => s
  let e := s.entry r
  if e.overheard.any (fun o => o.claim.station == x) then s.setEntry r { e with overheard := none } else s

/-- The notice of absence or departure of station `x` at the other blocks: its holdings settle, its claims are freed and
objections to them withdrawn (R35, R36); its jobs are dropped (R79); a reception from it is abandoned (R89); the join fails
when it is the responder (R125). DESIGN CHOICE (log 44): the abandonment, which is counted, comes before the failure, whose
entry into LISTENING at the fourth attempt would empty the record uncounted. -/
def State.stationGone (s : State) (x : Station) (reason : SettleReason) : State :=
  let s := allRegions.foldl (State.departRegion x reason) s
  let s := s.cancel .reply (Item.isObjectToStation x)
  let s := s.dropJobsFor x
  let s := if s.transfer.reception.any (fun rec => rec.source == x) then s.abandonReception else s
  if s.station = .joining && s.isResponder x then s.joinFails false else s

/-! ## The conclusion of every event -/

/-- A LEAVE is queued, in flight or waiting to be placed: the releases have ended (R113). -/
def State.leavePlaced (s : State) : Bool := s.liu.holds .originated Item.isLeave

/-- The test of R112, made in LEAVING: nothing HELD or CLAIMED by this station, and no CLAIM of its own in flight. By the
leave cause, a LEAVE is placed (R113) or the station enters JOINING (R114). -/
def State.endReleases (s : State) : State :=
  if s.station = .leaving && !s.leavePlaced && s.heldCount = 0 && s.pendingCount = 0 &&
      !s.liu.flightIs Item.isClaim then
    match s.membership.leaveCause with
    | some .resync => s.enterJoining
    | some .detach | none => s.place .originated .leave
  else s

/-- A rise of the sum of STALE and LOST regions above `sum` to 16 or more, in a station that was MEMBER, requests a resync
(R54, R115). -/
def State.requestResync (s before : State) (sum : Nat) : State :=
  if before.station = .member && s.station = .member && sum < s.outOfStep && Config.resyncThreshold ≤ s.outOfStep then
    (s.withMembership fun m => { m with faultCause := .resyncThreshold }).enterLeaving .resync
  else s

/-- An entry left the budget list (R39, R170). -/
def budgetRemoved (before after : List BudgetEntry) : Bool := before.any fun e => !after.contains e

/-- An OPEN that was WAITING before the event makes its next attempt when the event changed its region's entry or removed an
entry from the budget list (R170). DESIGN CHOICE (log 49): one that ends REPLICA_NOT_CURRENT there has reason NONE. -/
def State.retryOpen (s before : State) : State :=
  match before.running, s.running with
  | some run0, some run =>
    match run0.progress, run.progress with
    | .openWaiting _ _, .openWaiting clock last =>
      if (before.entry run.region).view != (s.entry run.region).view || budgetRemoved before.budget s.budget then
        if s.isCurrent run.region then s.attemptClaim run clock last else s.endCommand run .replicaNotCurrent
      else s
    | _, _ => s
  | _, _ => s

/-- What concludes an event that began in `before`: `sum` is the count of regions out of step against which a rise is
measured (R54). -/
def State.concludeFrom (s before : State) (sum : Nat) : State :=
  ((s.requestResync before sum).retryOpen before).endReleases

/-- What concludes an event that began in `before`. -/
def State.conclude (s before : State) : State := s.concludeFrom before before.outOfStep

/-- A command at instant `t`, in a station whose supply is in range: the clock goes to `t`, and `f` acts. While power is
below the operating range no command but POWER_ON has an effect (log 6). -/
def whenPowered (t : Time) (f : State → State) (s : State) : Host.Outcome State Fault Refusal :=
  .next (if s.powered then f (s.advance t) else s)

/-- An event of the station at instant `t`, with what concludes it. -/
def event (t : Time) (f : State → State) (s : State) : Host.Outcome State Fault Refusal :=
  whenPowered t (fun s => (f s).conclude s) s

end Sys2Proof.Machine
end

