-- ==== Sys2Proof/Machine/Wire.lean ====
section
/-! DEFINITION. Frames on the line, bit by bit: the layouts of 7.2, the CRC, the Manchester code, and the receiver, which
hands over the arrival of a good frame or the end of a faulty one (R138 to R141). -/

namespace Sys2Proof

open Sys2Proof.Machine

/-! ## Fields -/

def stationByte (x : Station) : Byte := BitVec.ofNat 8 x.val

def regionByte (r : Region) : Byte := BitVec.ofNat 8 r.val

def partByte (p : Part) : Byte := BitVec.ofNat 8 p.val

/-- Two station numbers in one byte, the first in bits 7–4. -/
def nibbles (hi lo : Station) : Byte := BitVec.ofNat 8 (16 * hi.val + lo.val)

/-- The station in bits 7–4. -/
def highNibble (b : Byte) : Station := ⟨b.toNat / 16, by omega⟩

/-- The station in bits 3–0. -/
def lowNibble (b : Byte) : Station := ⟨b.toNat % 16, by omega⟩

/-- A station field of a whole byte (R141). -/
def stationOf (b : Byte) : Option Station := if h : b.toNat < 16 then some ⟨b.toNat, h⟩ else none

/-- A part field (R141). -/
def partOf (b : Byte) : Option Part := if h : b.toNat < 8 then some ⟨b.toNat, h⟩ else none

/-- The first region of a DIR: 0, 8, …, 56 (R141). -/
def groupOf (b : Byte) : Option Group := if h : b.toNat % 8 = 0 ∧ b.toNat < 64 then some ⟨b.toNat / 8, by omega⟩ else none

/-! ## Payloads (7.2) -/

/-- The kind code of a frame. -/
def Frame.kindCode : Frame → Nat
  | .presence _ _ => 0 | .claim _ _ => 1 | .object _ _ _ _ _ => 2 | .update _ => 3 | .renew _ => 4 | .release _ _ => 5
  | .refreshReq _ => 6 | .refreshData _ => 7 | .joinReq => 8 | .dir _ _ _ => 9 | .snap _ => 10 | .syncEnd _ => 11
  | .leave => 12

def PresenceState.byte : PresenceState → Byte
  | .member => 1
  | .leaving => 2

def ObjectReason.byte : ObjectReason → Byte
  | .held => 0 | .settling => 1 | .claimed => 2 | .budget => 3

/-- The payload of an UPDATE. -/
def Update.payload (u : Update) : List Byte :=
  [regionByte u.region] ++ bytes16 u.version ++
    [u.offset, BitVec.ofNat 8 ((if u.mask.isSome then 128 else 0) + (if u.closeAfter then 64 else 0) + u.data.length)] ++
    (match u.mask with
      | some m => bytes32 m
      | none => []) ++ u.data

/-- The five bytes of a DIR entry; fields that are not carried are sent as 0. -/
def DirField.bytes (e : DirField) : List Byte :=
  let present := if e.lastOwner.isSome then 32 else 0
  let lastOwner := match e.lastOwner with
    | some x => stationByte x
    | none => 0
  (match e.shown with
    | .free => [BitVec.ofNat 8 present, 0]
    | .claimed c => [BitVec.ofNat 8 (64 + present + c.station.val), c.number]
    | .held x => [BitVec.ofNat 8 (128 + present + x.val), 0]
    | .settling => [BitVec.ofNat 8 (192 + present), 0]) ++ [lastOwner] ++ bytes16 e.version

/-- The payload of a REFRESH-DATA or SNAP part. -/
def PartField.payload (p : PartField) : List Byte :=
  [stationByte p.peer, regionByte p.region] ++ bytes16 p.version ++ [partByte p.part] ++ p.data

/-- The payload of a frame. -/
def Frame.payload : Frame → List Byte
  | .presence st held => [st.byte, held]
  | .claim r n => [regionByte r, n]
  | .object c r why owner v => [nibbles c.station owner, c.number, regionByte r, why.byte] ++ bytes16 v
  | .update u => u.payload
  | .renew r => [regionByte r]
  | .release r v => [regionByte r] ++ bytes16 v
  | .refreshReq r => [regionByte r]
  | .refreshData p => p.payload
  | .joinReq => []
  | .dir j g es => [stationByte j, BitVec.ofNat 8 (8 * g.val)] ++ es.flatMap DirField.bytes
  | .snap p => p.payload
  | .syncEnd j => [stationByte j]
  | .leave => []

/-! ## The payload's form (R141) -/

def readPresence : List Byte → Option Frame
  | [st, held] =>
    if 64 < held.toNat then none
    else if st = 1 then some (.presence .member held)
    else if st = 2 then some (.presence .leaving held)
    else none
  | _ => none

def readRegionField : List Byte → Option Region
  | [r] => regionOf r
  | _ => none

def readClaim : List Byte → Option Frame
  | [r, n] => (regionOf r).map fun r => .claim r n
  | _ => none

def readReason (b : Byte) : Option ObjectReason :=
  match b.toNat with
  | 0 => some .held
  | 1 => some .settling
  | 2 => some .claimed
  | 3 => some .budget
  | _ => none

def readObject : List Byte → Option Frame
  | [who, n, r, why, v1, v0] =>
    match regionOf r, readReason why with
    | some r, some why =>
      if why = .claimed ∧ 255 < (word16 v1 v0).toNat then none
      else some (.object { station := highNibble who, number := n } r why (lowNibble who) (word16 v1 v0))
    | _, _ => none
  | _ => none

/-- The mask and the data that follow the fixed part of an UPDATE. -/
def readUpdateTail (masked : Bool) (tail : List Byte) : Option (Option (BitVec 32) × List Byte) :=
  if masked then
    match tail with
    | a :: b :: c :: d :: data => some (some (word16 a b ++ word16 c d), data)
    | _ => none
  else some (none, tail)

def readUpdate : List Byte → Option Frame
  | r :: v1 :: v0 :: off :: flags :: tail =>
    match regionOf r, readUpdateTail (flags.getLsbD 7) tail with
    | some r, some (mask, data) =>
      let u : Update := { region := r, version := word16 v1 v0, offset := off, mask := mask,
                          closeAfter := flags.getLsbD 6, data := data }
      if data.length = flags.toNat % 64 ∧ u.goodForm = true then some (.update u) else none
    | _, _ => none
  | _ => none

def readRelease : List Byte → Option Frame
  | [r, v1, v0] => (regionOf r).map fun r => .release r (word16 v1 v0)
  | _ => none

def readPart (bs : List Byte) : Option PartField :=
  match bs with
  | x :: r :: v1 :: v0 :: p :: data =>
    match stationOf x, regionOf r, partOf p with
    | some x, some r, some p =>
      if data.length = 32 then some { peer := x, region := r, version := word16 v1 v0, part := p, data := data } else none
    | _, _, _ => none
  | _ => none

/-- One DIR entry: fields that are sent as 0 are not examined. -/
def readDirField (b0 n last v1 v0 : Byte) : Option DirField :=
  let shown : DirShown :=
    match b0.toNat / 64 with
    | 0 => .free
    | 1 => .claimed { station := lowNibble b0, number := n }
    | 2 => .held (lowNibble b0)
    | _ => .settling
  let e : DirField := { shown := shown, lastOwner := if b0.getLsbD 5 then some (lowNibble last) else none,
                        version := word16 v1 v0 }
  if e.goodForm then some e else none

/-- The entries of a DIR, five bytes each. -/
def readDirFields : List Byte → Option (List DirField)
  | [] => some []
  | b0 :: n :: last :: v1 :: v0 :: rest =>
    match readDirField b0 n last v1 v0, readDirFields rest with
    | some e, some es => some (e :: es)
    | _, _ => none
  | _ => none

def readDir : List Byte → Option Frame
  | j :: first :: rest =>
    match stationOf j, groupOf first, readDirFields rest with
    | some j, some g, some es => if es.length = 8 then some (.dir j g es) else none
    | _, _, _ => none
  | _ => none

/-- The frame of a kind code and a payload, when it is of good form (R141). -/
def readPayload (code : Nat) (payload : List Byte) : Option Frame :=
  match code with
  | 0 => readPresence payload
  | 1 => readClaim payload
  | 2 => readObject payload
  | 3 => readUpdate payload
  | 4 => (readRegionField payload).map .renew
  | 5 => readRelease payload
  | 6 => (readRegionField payload).map .refreshReq
  | 7 => (readPart payload).map .refreshData
  | 8 => if payload = [] then some .joinReq else none
  | 9 => readDir payload
  | 10 => (readPart payload).map .snap
  | 11 =>
    match payload with
    | [j] => (stationOf j).map .syncEnd
    | _ => none
  | 12 => if payload = [] then some .leave else none
  | _ => none

/-! ## The CRC (R140) -/

/-- One bit into the CRC register: generator x^16 + x^12 + x^5 + 1. -/
def crcBit (crc : BitVec 16) (bit : Bool) : BitVec 16 :=
  if (crc.msb ^^ bit) then (crc <<< 1) ^^^ 0x1021#16 else crc <<< 1

/-- The bits of a byte, the most significant first (R138). -/
def byteBits (b : Byte) : List Bool := [b.getLsbD 7, b.getLsbD 6, b.getLsbD 5, b.getLsbD 4, b.getLsbD 3, b.getLsbD 2,
  b.getLsbD 1, b.getLsbD 0]

/-- The bits of a run of bytes, in the order sent. -/
def bitsOf (bs : List Byte) : List Bool := bs.flatMap byteBits

/-- The CRC of a run of bytes: initial value all ones, no final inversion (R140). -/
def crc (bs : List Byte) : BitVec 16 := (bitsOf bs).foldl crcBit 0xFFFF#16

/-! ## Frames (7.2) -/

/-- Header and payload of a frame. -/
def frameBody (sender : Station) (f : Frame) : List Byte :=
  [BitVec.ofNat 8 (16 * f.kindCode + sender.val), BitVec.ofNat 8 f.payload.length] ++ f.payload

/-- The bytes of a frame after its start mark: header, payload, CRC (R138). -/
def frameBytes (sender : Station) (f : Frame) : List Byte := frameBody sender f ++ bytes16 (crc (frameBody sender f))

/-- The time a frame occupies the line (R138; 7.10). -/
def Frame.lineTime (f : Frame) : Time := Config.frameTime (4 + f.payload.length)

/-- A frame of exactly these bytes: the header's length, the CRC and the form are checked (R139 to R141). -/
def readFrame (bs : List Byte) : Option (Station × Frame) :=
  match bs with
  | h0 :: h1 :: rest =>
    let n := h1.toNat
    if n ≤ 44 ∧ rest.length = n + 2 ∧ rest.drop n = bytes16 (crc (h0 :: h1 :: rest.take n)) then
      (readPayload (h0.toNat / 16) (rest.take n)).map fun f => (lowNibble h0, f)
    else none
  | _ => none

/-! ## The line code (R138, R150) -/

/-- The two states of the driven line. -/
inductive Level where
  | a | b
  deriving DecidableEq, Repr

/-- A one is state A followed by state B, a zero state B followed by state A (R138). -/
def bitLevels (bit : Bool) : List Level := if bit then [.a, .b] else [.b, .a]

/-- The start mark, 10101011, first bit first (R138). -/
def startMark : Byte := 0b10101011#8

/-- The half-bits of a frame on the line, start mark included (R138). -/
def transmission (sender : Station) (f : Frame) : List Level :=
  (bitsOf (startMark :: frameBytes sender f)).flatMap bitLevels

/-- The jam: 16 bit times of state A, with no mid-bit transition (R150). -/
def jam : List Level := List.replicate 32 .a

/-- The time that `n` half-bits take, two to a bit of 125 ns (R138). Time counts whole nanoseconds (log 1): an odd number of
half-bits is taken half a nanosecond short (DESIGN CHOICE, log 61). -/
def halfBitsTime (n : Nat) : Time := n * Config.bitTime / 2

/-! ## The read-back (R150) -/

/-- The first half-bit at which the line does not read as it is driven (R150), counted from the frame's beginning. -/
def firstMismatch : List Level → List Level → Option Nat
  | driven :: more, read :: line => if driven = read then (firstMismatch more line).map (· + 1) else some 0
  | [], _ => none
  | _, [] => none

/-- What a station puts on the line when it reads `line` while it sends `own`: at the first mismatch the frame stops, and the
jam follows (R150). -/
def drivenThrough (own line : List Level) : List Level :=
  match firstMismatch own line with
  | some n => own.take (n + 1) ++ jam
  | none => own

/-! ## The receiver (R139) -/

/-- The bits of a run of half-bits, up to the first code violation (R138, R139). DESIGN CHOICE (log 60): a bit with a violation
in its second half is not read, the last bit of the CRC too, so that a violation in the very last half-bit is a fault. -/
def readBits : List Level → List Bool
  | .a :: .b :: rest => true :: readBits rest
  | .b :: .a :: rest => false :: readBits rest
  | _ => []

/-- The byte of eight bits, the most significant first. -/
def byteOfBits (b7 b6 b5 b4 b3 b2 b1 b0 : Bool) : Byte := BitVec.ofBoolListBE [b7, b6, b5, b4, b3, b2, b1, b0]

/-- The whole bytes of a run of bits. -/
def readByteRun : List Bool → List Byte
  | b7 :: b6 :: b5 :: b4 :: b3 :: b2 :: b1 :: b0 :: rest => byteOfBits b7 b6 b5 b4 b3 b2 b1 b0 :: readByteRun rest
  | _ => []

/-- The frame in one run of activity: the start mark, then the bytes that the header's length counts (R139). -/
def receive (levels : List Level) : Option (Station × Frame) :=
  match readByteRun (readBits levels) with
  | mark :: h0 :: h1 :: rest =>
    if mark = startMark then readFrame (h0 :: h1 :: rest.take (h1.toNat + 2)) else none
  | _ => none

/-- Activity of less than one bit time, which is no frame and no frame error (R138). -/
def isGlitch (levels : List Level) : Bool := levels.length < 2

/-- The arrival of a frame, by its kind, at instant `t` (R142). -/
def arrivalCommand (t : Time) (sender : Station) (f : Frame) : Instr :=
  match f with
  | .presence st held => .presenceArrival t sender st held
  | .claim r n => .claimArrival t sender r n
  | .object c r why owner v => .objectArrival t sender c r why owner v
  | .update u => .updateArrival t sender u
  | .renew r => .renewArrival t sender r
  | .release r v => .releaseArrival t sender r v
  | .refreshReq r => .refreshReqArrival t sender r
  | .refreshData p => .refreshDataArrival t sender p
  | .joinReq => .joinReqArrival t sender
  | .dir j g es => .dirArrival t sender j g es
  | .snap p => .snapArrival t sender p
  | .syncEnd j => .syncEndArrival t sender j
  | .leave => .leaveArrival t sender

/-- The commands that one run of activity gives the station, from its first half-bit at `began` to the idle line (R138, R139): a
glitch's deferral; the end of a faulty frame, at the start of the idle line; or the arrival of a good frame, at the last
half-bit of its CRC, whatever follows. DESIGN CHOICE (log 47): activity that goes on after that is line activity (R138, R146)
and no frame of its own. -/
def receivedCommands (began : Time) (levels : List Level) : List Instr :=
  let idle := began + halfBitsTime levels.length
  if isGlitch levels then [.lineActivityDeferral idle idle]
  else
    match receive levels with
    | none => [.faultyFrameEnd idle]
    | some (x, f) =>
      let ended := began + f.lineTime
      arrivalCommand ended x f :: if ended < idle then [.lineActivityDeferral ended idle] else []

end Sys2Proof
end

