-- ==== Sys2Proof/Machine/LineRows.lean ====
section
/-! DEFINITION. The line's rows: the end of a faulty frame (R143, R152), deferral (R146), the access instant with the choice
and the beginning checks of R148 and R149, collision and jam (R150 to R152), and waiting placing requests (R155). -/

namespace Sys2Proof.Machine

/-! ## Transmit failures (R150 to R152) -/

/-- An OBJECT whose objection deadline has come (R158). -/
def Item.objectionDue (now : Time) : Item → Bool
  | .object _ _ _ arrivedAt => arrivedAt + Config.objectionInterval ≤ now
  | _ => false

/-- The frame at the head of a queue is removed. -/
def State.dropHead (s : State) (q : QueueId) : State := s.withLiu fun l => l.setQueue q (l.queue q).tail

/-- The frame of a transmit failure: withdrawn at once when it is marked (R157) or is an OBJECT past its deadline, which is
counted (R158); otherwise it stays at the head for its retry (R47, R58, R151). DESIGN CHOICE (log 54): a marked OBJECT past its deadline
is withdrawn uncounted, by R157. -/
def State.keepOrWithdraw (s : State) (q : QueueId) : State :=
  match (s.liu.queue q).head? with
  | some x =>
    if x.marked then s.dropHead q
    else if x.item.objectionDue s.now then (s.dropHead q).raiseObjectionsWithdrawn
    else s
  | none => s

/-- The end without arrival is reported to the frame's producer; the command unit acts on its own frame's (R151). -/
def State.reportEnd (s : State) (item : Option Item) : State :=
  match s.running, item with
  | some run, some i => if run.owns i then s.commandEndWithoutArrival run else s
  | _, _ => s

/-- The eighth consecutive failure isolates a station in JOINING, MEMBER or LEAVING (R117, R152). -/
def State.isolateAtLimit (s : State) : State :=
  if Config.transmitFailureLimit ≤ s.liu.failures && s.station.transmits then s.enterIsolated else s

/-- A transmit failure of the frame at the head of queue `q`, with the transmitter as `after` (R151, R152). Whether the eighth
failure's isolation or the report to the producer comes first is a free value (log 9). DESIGN CHOICE (log 46): an OBJECT past
its deadline is withdrawn and counted before the isolation, which would withdraw it uncounted. -/
def State.transmitFailure (s : State) (q : QueueId) (after : Transmitter) : State :=
  let item := ((s.liu.queue q).head?).map (·.item)
  let s := s.raiseTxFailures.withLiu fun l => { l with transmitter := after, failures := l.failures + 1 }
  let s := s.keepOrWithdraw q
  if Config.transmitFailureLimit ≤ s.liu.failures then
    let first := Config.reportBeforeIsolation s.freeCount
    let s := { s with freeCount := s.freeCount + 1 }
    if first then (s.reportEnd item).isolateAtLimit else s.isolateAtLimit.reportEnd item
  else s.reportEnd item

/-! ## Faulty frames and activity (R143, R146) -/

/-- The LIU at the end of a faulty frame: the fallback flag, and the end of the line's activity (R143, R145). What ends next
on the line is another frame. -/
def State.faultHeard (s : State) : State :=
  s.withLiu fun l => { l with fallback := true, activityEnd := s.now, collisionEnd := none }

/-- The frame that ends now is the collided one that this station transmitted in: the activity of its jam has not ended before
(R139, R150; DESIGN CHOICE, log 41). A frame that began after that activity ends later. -/
def State.endsOwnCollision (s : State) : Bool := s.liu.collisionEnd.any fun e => s.now ≤ e

/-- Activity on the line at instant `now` that ends at `e`: the quiet gap runs from its end (R145, R146; log 29). Activity that
goes on from this station's jam without idle line belongs to the same collided frame (R139, R150; log 41). -/
def Liu.seeActivity (l : Liu) (now e : Time) : Liu :=
  { l with
    activityEnd := max l.activityEnd e
    collisionEnd := l.collisionEnd.map fun c => if now ≤ c then max c e else c }

/-- A faulty frame ends, in any station state (R211): a frame error when this station was not transmitting during it, and an
aborted frame of its own when it is sending (R143, R152, R160). The failure of a frame that collided has been counted, while the station still jams (log 35) and
when its jam ended before the last one (log 41). -/
def State.faultyFrameEnds (s : State) : State :=
  match s.liu.transmitter with
  | .off => if s.endsOwnCollision then s.faultHeard else s.faultHeard.raiseFrameErrors
  | .sending q _ => s.faultHeard.transmitFailure q .off
  | .jamming _ => s.faultHeard

/-- FAULTY_FRAME_END (R143, R152). -/
def execFaultyFrameEnd (t : Time) (s : State) : Host.Outcome State Fault Refusal := event t State.faultyFrameEnds s

/-- LINE_ACTIVITY_DEFERRAL (R145, R146). -/
def execLineActivityDeferral (t : Time) (activityEnd : Time) (s : State) : Host.Outcome State Fault Refusal :=
  whenPowered t (fun s => s.withLiu fun l => l.seeActivity s.now (max s.now activityEnd)) s

/-- The half-bits that the transmitter drives: the frame in flight, or the jam (R138, R150). -/
def State.drives (s : State) : List Level :=
  match s.liu.transmitter, s.self with
  | .sending _ f, some own => transmission own f
  | .jamming _, _ => jam
  | .sending _ _, none | .off, _ => []

/-- The read-back of the frame in flight, begun at `began`, against the half-bits `line` that the line reads: the collision at
the first mismatch (R150), taken at the end of that half-bit (DESIGN CHOICE, log 61). -/
def State.readBack (s : State) (began : Time) (line : List Level) : Option Instr :=
  match s.liu.transmitter with
  | .sending _ _ => (firstMismatch s.drives line).map fun n => .collision (began + halfBitsTime (n + 1))
  | .off | .jamming _ => none

/-- The read-back mismatches while the station sends: the frame stops, the jam of 2 µs begins, and the failure is counted
(R150, R152). -/
def State.collide (s : State) : State :=
  match s.liu.transmitter with
  | .sending q _ => s.transmitFailure q (.jamming (s.now + halfBitsTime jam.length))
  | .off | .jamming _ => s

/-- COLLISION (R150, R151, R152). -/
def execCollision (t : Time) (s : State) : Host.Outcome State Fault Refusal := event t State.collide s

/-- This station's jam ends when its 2 µs are over, and with it its part in the collided frame, faulty at every station (R147,
R150); before that the row has no effect (log 2). Activity that was seen to last longer still does, and the collided frame ends
with it (logs 29, 41). -/
def State.endJam (s : State) : State :=
  match s.liu.transmitter with
  | .jamming ends =>
    if ends ≤ s.now then
      s.withLiu fun l =>
        let e := max l.activityEnd ends
        { l with transmitter := .off, fallback := true, activityEnd := e, collisionEnd := some e }
    else s
  | .off | .sending _ _ => s

/-- JAM_END (R150, R151). -/
def execJamEnd (t : Time) (s : State) : Host.Outcome State Fault Refusal := event t State.endJam s

/-! ## The beginning check (R149) -/

/-- The OBJECT of a state objection as its entry now gives it (R19); none when the authority is gone. -/
def State.stateObjection (s : State) (own : Station) (c : Claim) (r : Region) : Option Frame :=
  let e := s.entry r
  let version := (s.replica r).version
  match e.state with
  | .held o _ _ => if o = own then some (.object c r .held own version) else none
  | .settling _ _ => if e.lastOwner = some own then some (.object c r .settling own version) else none
  | .claimed k _ => if k.station = own then some (.object c r .claimed own (k.number.setWidth 16)) else none
  | .unknown | .free => none

/-- What a DIR entry shows of region `r` (R128). An UNKNOWN entry cannot stand here (log 28). -/
def State.dirField (s : State) (r : Region) : DirField :=
  let e := s.entry r
  { shown := match e.state with
      | .unknown | .free => .free
      | .claimed c _ => .claimed c
      | .held x _ _ => .held x
      | .settling _ _ => .settling
    lastOwner := e.lastOwner
    version := (s.replica r).version }

/-- The eight entries of DIR frame k (R128). -/
def State.dirFields (s : State) (g : Group) : List DirField :=
  (List.finRange 8).map fun i => s.dirField ⟨8 * g.val + i.val, by omega⟩

/-- The frame of a part. -/
def TransferKind.frame : TransferKind → PartField → Frame
  | .refresh, p => .refreshData p
  | .snap, p => .snap p

/-- Part 0 is about to begin: the region is copied into the transfer buffer (R76). -/
def State.fillBuffer (s : State) (r : Region) : State :=
  s.withTransfer fun x =>
    { x with buffer := some { region := r, version := (s.replica r).version, content := (s.replica r).content } }

/-- The frame of part 0 (R76). -/
def State.partZeroFrame (s : State) (kind : TransferKind) (peer : Station) (r : Region) : Frame :=
  kind.frame { peer := peer, region := r, version := (s.replica r).version, part := 0,
               data := readBytes (s.replica r).content 0 Config.partSize }

/-- The job whose part 0 of region `r` is due is still in the list. -/
def State.partZeroDue (s : State) (kind : TransferKind) (peer : Station) (r : Region) : Bool :=
  match kind with
  | .refresh => s.transfer.jobs.contains (.refresh r peer (.at 0))
  | .snap => s.transfer.jobs.contains (.sync peer (.snapshot r 0))

/-- Part 0's replica is not CURRENT: the refresh job is dropped, or the sync job goes on with the next region (R76). A job
that was dropped places nothing (R79, R127). -/
def State.skipPartZero (s : State) (kind : TransferKind) (peer : Station) (r : Region) : State :=
  if s.partZeroDue kind peer r then
    match kind with
    | .refresh => s.endJobs (Job.isRefresh r peer)
    | .snap => s.syncGoOn peer (r.val + 1)
  else s

/-- An UPDATE as it begins, anew at each retry: the next version, and the data of a COPY read now (R56 to R58). -/
def State.updateFrame (s : State) (r : Region) (offset : Nat) (mask : Option (BitVec 32)) (closeAfter : Bool)
    (source : UpdateSource) : Frame :=
  .update { region := r, version := nextVersion (s.replica r).version, offset := BitVec.ofNat 8 offset, mask := mask,
            closeAfter := closeAfter,
            data := match source with
              | .bytes data => data
              | .replica from_ o n => readBytes (s.replica from_).content o n }

/-- The replica that refuses an UPDATE's beginning: its own, or the source of a COPY chunk (R56, R57; log 38). -/
def State.updateRefusal (s : State) (r : Region) (source : UpdateSource) : Option Region :=
  if !s.isCurrent r then some r
  else
    match source with
    | .replica from_ _ _ => if s.isCurrent from_ then none else some from_
    | .bytes _ => none

/-- The PRESENCE as it begins (R108). -/
def State.presenceFrame (s : State) : Frame :=
  .presence (if s.station = .leaving then .leaving else .member) (BitVec.ofNat 8 s.heldCount)

/-- The beginning check of the head frame of queue `q` and its filling, anew at each attempt (R47, R149; R43 for BUDGET): either the frame begins, in the state given,
or the check withdraws it and its producer has acted on the report. A part 0 of a dropped job that collided is retried, and one that is then withdrawn has
no producer to act (R79, R127, R151; DEDUCED, log 52). -/
def State.tryBegin (s : State) (own : Station) (q : QueueId) (x : Queued) : State × Option Frame :=
  match x.item with
  | .claim r n =>
    if s.budgetRoom then (s, some (.claim r (n.getD s.claimCounter))) else ((s.dropHead q).noticeBudgetFull r, none)
  | .object c r true _ => (s, some (.object c r .budget own 0))
  | .object c r false _ =>
    match s.stateObjection own c r with
    | some f => (s, some f)
    | none => ((s.dropHead q).raiseObjectionsWithdrawn, none)
  | .partZero kind peer r =>
    if s.isCurrent r then (s.fillBuffer r, some (s.partZeroFrame kind peer r))
    else if x.orphan then (s.dropHead q, none)
    else ((s.dropHead q).skipPartZero kind peer r, none)
  | .part kind f => (s, some (kind.frame f))
  | .dir j g => (s, some (.dir j g (s.dirFields g)))
  | .syncEnd j => (s, some (.syncEnd j))
  | .update r offset mask closeAfter source =>
    match s.updateRefusal r source with
    | none => (s, some (s.updateFrame r offset mask closeAfter source))
    | some refused => ((s.dropHead q).noticeUpdateRefused r refused, none)
  | .renew r => (s, some (.renew r))
  | .release r _ => (s, some (.release r (s.replica r).version))
  | .refreshReq r => (s, some (.refreshReq r))
  | .joinReq _ => (s, some .joinReq)
  | .presence => (s, some s.presenceFrame)
  | .leave => (s, some .leave)

/-! ## The choice (R148) -/

/-- The reply queue's head if it holds a frame, otherwise the originated queue's (R148). -/
def Liu.choice (l : Liu) : Option (QueueId × Queued) :=
  match l.reply, l.originated with
  | x :: _, _ => some (.reply, x)
  | [], x :: _ => some (.originated, x)
  | [], [] => none

/-- Waiting requests take the places that have freed (R155). -/
def State.settleWaiting (s : State) : State := (s.placeAllWaiting .reply).placeAllWaiting .originated

/-- The LIU chooses and checks until a frame begins or both queues are empty (R148). The bound is above the number of frames
that checks can withdraw at one instant (log 34). -/
def State.chooseFrame (own : Station) : Nat → State → State
  | 0, s => s
  | n + 1, s =>
    match s.liu.choice with
    | none => s
    | some (q, x) =>
      match s.tryBegin own q x with
      | (s, some f) => s.withLiu fun l => { l with transmitter := .sending q f }
      | (s, none) => State.chooseFrame own n s.settleWaiting

/-- The access instant: a WAITING station whose access wait has run out, with the line idle, begins a frame (R145, R148). -/
def State.access (s : State) : State :=
  let s := s.settleWaiting
  match s.self with
  | some own => if s.accessTimer = .waiting && s.accessAt own ≤ s.now then State.chooseFrame own 512 s else s
  | none => s

/-- ACCESS_INSTANT (R145, R148, R149). -/
def execAccessInstant (t : Time) (s : State) : Host.Outcome State Fault Refusal := event t State.access s

/-- WAITING_PLACING_REQUEST: the oldest waiting request of a queue with room is placed (R155). -/
def execWaitingPlacingRequest (t : Time) (queue : QueueId) (s : State) : Host.Outcome State Fault Refusal :=
  whenPowered t (fun s => s.placeWaiting queue) s

end Sys2Proof.Machine
end

