-- ==== Sys2Proof/Machine/ArrivalRows.lean ====
section
/-! DEFINITION. The arrivals of good frames (R142): what every arrival does at the LIU and the membership controller, the
echo of this station's own frame (R153), and each kind's delivery to the blocks. -/

namespace Sys2Proof.Machine

/-! ## Every arrival (R142, R104, R119, R153) -/

/-- The frame of this station that ends with this arrival: it is in flight, with this content, and the sender is this
station (R142; log 10). -/
def State.ownFrame (s : State) (sender : Station) (f : Frame) : Option Queued :=
  match s.liu.transmitter with
  | .sending _ g => if s.isSelf sender && g == f then s.liu.flight else none
  | .off | .jamming _ => none

/-- The LIU at the arrival of a good frame, in every station state (R142, R211): last sender, fallback flag, and the end of the
line's activity. -/
def State.lineHeard (s : State) (sender : Station) : State :=
  s.withLiu fun l => { l with lastSender := some sender, fallback := false, activityEnd := s.now }

/-- At its echo the frame leaves its queue, and the transmit failures in a row end (R153). -/
def State.leaveQueue (s : State) : State :=
  s.withLiu fun l =>
    match l.transmitter with
    | .sending q _ => { (l.setQueue q (l.queue q).tail) with transmitter := .off, failures := 0 }
    | .off | .jamming _ => l

/-- The membership controller at an echo of this station: the own entry's last-heard time (R103); in MEMBER and LEAVING the
presence timer, and a PRESENCE that has not begun (R108); in JOINING the renewal deadline; in each of them a renewal that has
not begun, which may stand there since JOINING (R123). -/
def State.ownHeard (s : State) (own : Station) : State :=
  let e := s.member own
  let s := if e.presence = .absent then s else s.setMember own { e with lastHeard := some s.now }
  match s.station with
  | .member | .leaving =>
    (s.withMembership fun m => { m with presenceTimer := some (s.now + Config.presenceInterval) }).cancel .originated fun i =>
      i.isPresence || i.isRenewal
  | .joining =>
    (s.withMembership fun m =>
      { m with join := m.join.map fun j => { j with renewal := some (s.now + Config.renewalInterval) } }).cancel .originated
      Item.isRenewal
  | .unconfigured | .listening | .detached | .isolated => s

/-- A frame of this kind proves that its sender is MEMBER or LEAVING on a running line (R100). -/
def provesMember : Frame → Bool
  | .joinReq | .leave => false
  | .object _ _ why _ _ => why != .budget
  | .presence st _ => st == .member
  | .claim _ _ | .update _ | .renew _ | .release _ _ | .refreshReq _ | .refreshData _ | .dir _ _ _ | .snap _
  | .syncEnd _ => true

/-- The presence that a frame gives its sender's entry (R104); a LEAVE is R107's. -/
def presenceAfter (f : Frame) (p : Presence) : Presence :=
  match f with
  | .joinReq => .joining
  | .object _ _ .budget _ _ => if p = .joining then .joining else .member
  | .leave => .absent
  | _ => .member

/-- A frame from joiner `j` of a kind other than JOIN-REQ and OBJECT shows that `j` is no longer a joiner (R127). -/
def endsJoining : Frame → Bool
  | .joinReq | .object _ _ _ _ _ => false
  | _ => true

/-- The membership controller at a good frame of another station, in the states that keep the table (R100, R104, R127). An
entry that an absence expiry made ABSENT is restored by the next good frame of its station (R105, R106). DESIGN CHOICE (log
53): a job that this frame drops leaves the list before the blocks act, so that the REFRESH-REQ of a station whose sync job it
drops finds the place free (R74). -/
def State.otherHeard (s : State) (sender : Station) (f : Frame) : State :=
  if s.station.listens then
    let p := presenceAfter f (s.member sender).presence
    let s := s.setMember sender
      (if p = .absent then MemberEntry.absent
        else { presence := p, lastHeard := some s.now, absence := some (s.now + Config.absenceTimeout) })
    let s := if s.station = .listening && provesMember f then s.withMembership fun m => { m with memberHeard := true } else s
    if endsJoining f then s.dropSync sender else s
  else s

/-- The arrival of a frame at the LIU and the membership controller, then at the blocks: `own` is the queued frame whose echo
it is. A good frame with this station's number that it did not send goes to no other block (R119, R142). -/
def State.frameArrives (sender : Station) (f : Frame) (deliver : Option Queued → State → State) (s : State) : State :=
  let s := s.lineHeard sender
  match s.ownFrame sender f with
  | some x => deliver (some x) (s.leaveQueue.ownHeard sender)
  | none => if s.isSelf sender then s.duplicateNumber else deliver none (s.otherHeard sender f)

/-- A frame that fails a form check of R141 does not arrive: it is a faulty frame (R139; log 11). -/
def arrival (t : Time) (sender : Station) (f : Frame) (deliver : Option Queued → State → State) (s : State) :
    Host.Outcome State Fault Refusal :=
  event t (if f.goodForm then State.frameArrives sender f deliver else State.faultyFrameEnds) s

/-- The echo of a transfer job's frame: the job goes on, unless it was dropped while the frame was in flight (R72, R79,
R127). -/
def State.jobEchoed (x : Queued) (goOn : State → State) (s : State) : State := if x.orphan then s else goOn s

/-! ## Claims and holdings -/

/-- CLAIM_ARRIVAL (R10 to R18, R41, R42). -/
def execClaimArrival (t : Time) (sender : Station) (region : Region) (number : ClaimNumber) (s : State) :
    Host.Outcome State Fault Refusal :=
  arrival t sender (.claim region number) (fun own s => s.claimArrives sender region number own.isSome) s

/-- OBJECT_ARRIVAL (R20 to R25, R66). -/
def execObjectArrival (t : Time) (sender : Station) (claim : Claim) (region : Region) (reason : ObjectReason)
    (owner : Station) (version : Version) (s : State) : Host.Outcome State Fault Refusal :=
  arrival t sender (.object claim region reason owner version)
    (fun _ s => s.objectArrives claim region reason owner version) s

/-- UPDATE_ARRIVAL (R28, R59 to R65). -/
def execUpdateArrival (t : Time) (sender : Station) (u : Update) (s : State) : Host.Outcome State Fault Refusal :=
  arrival t sender (.update u) (fun own s => s.updateArrives sender u own.isSome) s

/-- RENEW_ARRIVAL (R27). -/
def execRenewArrival (t : Time) (sender : Station) (region : Region) (s : State) : Host.Outcome State Fault Refusal :=
  arrival t sender (.renew region) (fun own s => s.renewArrives sender region own.isSome) s

/-- RELEASE_ARRIVAL (R29, R34, R67). -/
def execReleaseArrival (t : Time) (sender : Station) (region : Region) (finalVersion : Version) (s : State) :
    Host.Outcome State Fault Refusal :=
  arrival t sender (.release region finalVersion)
    (fun own s => s.releaseArrives sender region finalVersion own.isSome) s

/-! ## Presence (R109) -/

/-- The holding of region `r` by `x` began before the PRESENCE that now arrives began: the last lease start is the lease
deadline less the lease, and the PRESENCE began one frame time before its arrival (R109; 7.10). -/
def State.contradicted (s : State) (x : Station) (frameTime : Time) (r : Region) : Bool :=
  match (s.entry r).state with
  | .held o lease _ => o == x && lease + frameTime < s.now + s.leaseTime
  | _ => false

/-- The presence holding check, in JOINING, MEMBER and LEAVING, at held count 0 (R109). -/
def State.presenceCheck (s : State) (x : Station) (f : Frame) : State :=
  if s.station.transmits then
    (allRegions.filter (s.contradicted x f.lineTime)).foldl (fun s r => s.settle r .expired x true) s
  else s

/-- PRESENCE_ARRIVAL (R104, R109). -/
def execPresenceArrival (t : Time) (sender : Station) (state : PresenceState) (heldCount : Byte) (s : State) :
    Host.Outcome State Fault Refusal :=
  arrival t sender (.presence state heldCount)
    (fun own s =>
      if own.isNone && heldCount = 0 then s.presenceCheck sender (.presence state heldCount) else s) s

/-! ## Transfers -/

/-- REFRESH_REQ_ARRIVAL: at the echo the refresh timer starts (R91); from another station, the answerer's choice (R73,
R74). -/
def execRefreshReqArrival (t : Time) (sender : Station) (region : Region) (s : State) :
    Host.Outcome State Fault Refusal :=
  arrival t sender (.refreshReq region)
    (fun own s => if own.isSome then s.refreshReqEchoed else s.refreshRequested region sender) s

/-- The receive side at another station's part; `replay` goes through the catch-up entries that an installation left, and
the sum of regions out of step is measured between the two (R54, R86, R87). -/
def State.receivePart (s : State) (kind : TransferKind) (sender : Station) (f : PartField) : State × Nat :=
  let (s, entries) := s.partReceived kind sender f
  (State.replayCatchUp f.region f.version s entries, s.outOfStep)

/-- The arrival of a part of either kind: at the echo the next part is placed (R77); from another station a competing job is
dropped, and the receive side acts (R79, R81 to R87, R127). -/
def partArrival (t : Time) (sender : Station) (f : Frame) (kind : TransferKind) (p : PartField)
    (echoed : Queued → State → State) (suppress : State → State) (s : State) : Host.Outcome State Fault Refusal :=
  if f.goodForm then
    whenPowered t
      (fun before =>
        let s := before.lineHeard sender
        match s.ownFrame sender f with
        | some x => (echoed x (s.leaveQueue.ownHeard sender)).conclude before
        | none =>
          if s.isSelf sender then s.duplicateNumber.conclude before
          else
            let (s, sum) := (suppress (s.otherHeard sender f)).receivePart kind sender p
            s.concludeFrom before sum) s
  else event t State.faultyFrameEnds s

/-- REFRESH_DATA_ARRIVAL (R77, R79, R81, R83, R86, R87). -/
def execRefreshDataArrival (t : Time) (sender : Station) (p : PartField) (s : State) : Host.Outcome State Fault Refusal :=
  partArrival t sender (.refreshData p) .refresh p (fun x s => s.jobEchoed x fun s => s.refreshPartEchoed p)
    (fun s => s.suppressRefresh p) s

/-! ## Joining -/

/-- A DIR, SNAP or SYNC-END for joiner `j` from station `x` qualifies for the gap deadline (R124). -/
def State.qualifies (s : State) (x j : Station) : Bool :=
  s.station == .joining &&
    s.membership.join.any fun rec =>
      match rec.responder with
      | some y => s.isSelf j && y == x
      | none => true

/-- The gap deadline is set or restarted at the arrival of a qualifying frame (R124; log 15: by the record as the arrival
finds it). -/
def State.restartGap (s : State) (x j : Station) : State :=
  if s.qualifies x j then
    s.withMembership fun m => { m with join := m.join.map fun rec => { rec with gap := some (s.now + Config.syncGapTimeout) } }
  else s

/-- The echo of a DIR, SNAP or SYNC-END for joiner `j`: the job goes on, and the frame qualifies for the gap deadline as any
station's does: it may have been in flight when this station entered JOINING (R114, R124). -/
def State.syncEchoed (x : Queued) (own j : Station) (goOn : State → State) (s : State) : State :=
  (s.jobEchoed x goOn).restartGap own j

/-- The echo of an attempt JOIN-REQ sets the gap deadline; a renewal's does not touch it (R122, R123). -/
def State.joinReqEchoed (s : State) (item : Item) : State :=
  if item.isRenewal then s
  else s.withMembership fun m =>
    { m with join := m.join.map fun rec => { rec with gap := some (s.now + Config.syncGapTimeout) } }

/-- Another station's JOIN-REQ: a member may add a sync job (R126); a joiner whose responder it is restarts (R125). -/
def State.joinRequested (s : State) (j : Station) : State :=
  if s.station = .joining && s.isResponder j then s.joinFails false else s.syncRequested j

/-- JOIN_REQ_ARRIVAL (R122, R125, R126). -/
def execJoinReqArrival (t : Time) (sender : Station) (s : State) : Host.Outcome State Fault Refusal :=
  arrival t sender .joinReq
    (fun own s => match own with
      | some x => s.joinReqEchoed x.item
      | none => s.joinRequested sender) s

/-- The joiner's entry after the installation of a DIR entry (R131, R3). Its deadlines are measured from the DIR's arrival, and it
runs from then on as in MEMBER (R133). -/
def State.installedState (s : State) (e : DirField) : EntryState × Option Station :=
  let own (x : Station) (otherwise : EntryState) : EntryState × Option Station :=
    if s.isSelf x then (.settling .ownerAbsent (s.now + Config.settleInterval), some x) else (otherwise, e.lastOwner)
  match e.shown with
  | .free => (.free, e.lastOwner)
  | .claimed c => own c.station (.claimed c (s.now + Config.confirmationInterval))
  | .held x => own x (s.heldState x (s.now + s.leaseTime))
  | .settling => (.settling .released (s.now + Config.settleInterval), e.lastOwner)

/-- A DIR entry is installed over the joiner's entry, and its version checked against a CURRENT replica (R131, R132). A change
of the settle reason alone is a directory change too (R7; log 16). -/
def State.installEntry (s : State) (r : Region) (e : DirField) : State :=
  let (state, lastOwner) := s.installedState e
  (s.changeEntry r { state := state, lastOwner := lastOwner, overheard := none } true).checkVersion r e.version

/-- Region 8k + i of DIR group k. -/
def groupRegion (g : Group) (i : Fin 8) : Region := ⟨8 * g.val + i.val, by omega⟩

/-- The eight entries of a DIR frame are installed. -/
def State.installGroup (s : State) (g : Group) (es : List DirField) : State :=
  ((List.finRange 8).zip es).foldl (fun s (i, e) => s.installEntry (groupRegion g i) e) s

/-- The joiner at a DIR that carries it (R130): group 0 makes its sender the responder and begins a new run; the other groups
count from the responder only. -/
def State.dirReceived (s : State) (x : Station) (g : Group) (es : List DirField) : State :=
  if g = 0 then
    (s.withMembership fun m => { m with join := m.join.map fun rec => { rec with responder := some x, runSet := [0] } }).installGroup
      g es
  else if s.isResponder x then
    (s.withMembership fun m =>
      { m with join := m.join.map fun rec => { rec with runSet := insertAscending g rec.runSet } }).installGroup g es
  else s

/-- Another station's DIR: a member's own sync job for the joiner is suppressed (R127); the joiner installs it (R124,
R130). -/
def State.dirArrives (s : State) (x j : Station) (g : Group) (es : List DirField) : State :=
  let s := (s.suppressSync j).restartGap x j
  if s.station = .joining && s.isSelf j then s.dirReceived x g es else s

/-- DIR_ARRIVAL (R124, R127, R128, R130 to R132). -/
def execDirArrival (t : Time) (sender joiner : Station) (group : Group) (entries : List DirField) (s : State) :
    Host.Outcome State Fault Refusal :=
  arrival t sender (.dir joiner group entries)
    (fun own s => match own with
      | some x => s.syncEchoed x sender joiner fun s => s.dirEchoed joiner group
      | none => s.dirArrives sender joiner group entries) s

/-- SNAP_ARRIVAL (R77, R82 to R87, R124, R127). -/
def execSnapArrival (t : Time) (sender : Station) (p : PartField) (s : State) : Host.Outcome State Fault Refusal :=
  partArrival t sender (.snap p) .snap p (fun x s => s.syncEchoed x sender p.peer fun s => s.snapPartEchoed p)
    (fun s => (s.suppressSync p.peer).restartGap sender p.peer) s

/-- All eight groups are in the run set (R135). -/
def State.runComplete (s : State) : Bool := s.membership.join.any fun rec => (List.finRange 8).all fun g => rec.runSet.contains g

/-- SYNC-END for this joiner from its responder: with a complete run the station enters MEMBER, otherwise the join fails
(R135). A snapshot reception still open is abandoned first. -/
def State.syncEndReceived (s : State) : State :=
  if s.runComplete then s.abandonReception.joined else s.abandonReception.joinFails true

/-- Another station's SYNC-END (R124, R127, R135, R136). DESIGN CHOICE (log 59): the gap deadline is restarted before the join
ends, so that a restart's attempt removes it at the same arrival (R122). -/
def State.syncEndArrives (s : State) (x j : Station) : State :=
  let s := (s.suppressSync j).restartGap x j
  if s.station = .joining && s.isSelf j && s.isResponder x then s.syncEndReceived else s

/-- SYNC_END_ARRIVAL (R129, R135). -/
def execSyncEndArrival (t : Time) (sender joiner : Station) (s : State) : Host.Outcome State Fault Refusal :=
  arrival t sender (.syncEnd joiner)
    (fun own s => match own with
      | some x => s.syncEchoed x sender joiner fun s => s.syncEndEchoed joiner
      | none => s.syncEndArrives sender joiner) s

/-! ## LEAVE (R107, R113) -/

/-- At the echo of its LEAVE the station enters DETACHED (R113). -/
def State.leaveEchoed (s : State) : State := if s.station = .leaving then s.enterDetached else s

/-- Another station's LEAVE, in the states that keep the table: the notice of its departure (R107, R36). -/
def State.leaveArrives (s : State) (x : Station) : State := if s.station.listens then s.stationGone x .ownerLeft else s

/-- LEAVE_ARRIVAL (R36, R107, R113). -/
def execLeaveArrival (t : Time) (sender : Station) (s : State) : Host.Outcome State Fault Refusal :=
  arrival t sender .leave (fun own s => if own.isSome then s.leaveEchoed else s.leaveArrives sender) s

end Sys2Proof.Machine
end

