-- ==== Sys2Proof/Machine/HostRows.lean ====
section
/-! DEFINITION. The host's transactions (spec/10): each at its taking point, with the completion points and the end of a
transaction as rows of their own. A new transaction ends one that is still open (log 21). -/

namespace Sys2Proof.Machine

/-! ## Transactions -/

/-- A transaction is taken: it stands as the one in progress, with its answer byte where it has one (R197). -/
def State.begin (s : State) (tr : Transaction) (answer : Option Answer) : State :=
  s.withHost fun h => { h with transaction := tr, answer := answer }

/-- A read transaction is taken: the read buffer is filled at this instant (R198). -/
def State.beginRead (s : State) (tr : Transaction) (buffer : List Byte) : State :=
  s.withHost fun h => { h with transaction := tr, answer := none, readBuffer := buffer }

/-- A request with an answer byte and nothing left to complete (R197). -/
def State.beginAnswered (s : State) (a : Answer) : State := s.begin .nothingToComplete (some a)

/-! ## Configuration (R99, R199) -/

/-- The membership controller's answer to a CONFIGURE, with the record it writes on OK (R99). Bits 2 to 7 of the notify
mask are stored as 0 (R199). -/
def State.configuration (s : State) (station leaseCode limit mask : Byte) : Answer × Option Configuration :=
  if s.station != .unconfigured then (.locked, none)
  else if hs : station.toNat < 16 then
    if hl : leaseCode.toNat < 51 then
      (.ok, some { station := ⟨station.toNat, hs⟩, leaseCode := ⟨leaseCode.toNat, hl⟩, openWaitLimit := limit,
                   notifyChanges := mask.getLsbD 0, notifyState := mask.getLsbD 1 })
    else (.badLease, none)
  else (.badStation, none)

/-- The configuration record is written and locked (R99, R199). -/
def State.writeConfiguration (s : State) (c : Configuration) : State := s.withHost fun h => { h with config := some c }

/-- A CONFIGURE is taken. -/
def State.configure (station leaseCode limit mask : Byte) (s : State) : State :=
  match s.configuration station leaseCode limit mask with
  | (a, some c) => ((s.beginAnswered a).writeConfiguration c).enterListening
  | (a, none) => s.beginAnswered a

/-- CONFIGURE (R199, R99). -/
def execConfigure (t : Time) (station leaseCode openWaitLimit notifyMask : Byte) (s : State) :
    Host.Outcome State Fault Refusal :=
  whenPowered t (State.configure station leaseCode openWaitLimit notifyMask) s

/-! ## STATUS (R200) -/

/-- The member set: bit x is set when the membership entry for station x is MEMBER. -/
def State.memberSet (s : State) : BitVec 16 := BitVec.ofFnLE fun x => (s.member x).presence == .member

/-- The ten bytes of a STATUS (10.7). -/
def State.statusBytes (s : State) : List Byte :=
  [s.station.code, s.membership.faultCause.code] ++ bytes16 s.memberSet ++
    [BitVec.ofNat 8 s.host.commandQueue.length, BitVec.ofNat 8 s.host.completionQueue.length,
     BitVec.ofNat 8 s.heldCount, BitVec.ofNat 8 s.staleCount, BitVec.ofNat 8 s.lostCount, flagBit s.host.stateChanged 0]

def State.takeStatus (s : State) : State := s.beginRead (.statusTaken false) s.statusBytes

/-- STATUS, its taking point (R200). -/
def execStatus (t : Time) (s : State) : Host.Outcome State Fault Refusal := whenPowered t State.takeStatus s

/-- The state-changed flag is cleared unless it was set again after the taking point (R200). -/
def State.completeStatus (s : State) : State :=
  match s.host.transaction with
  | .statusTaken setAgain =>
    s.withHost fun h => { h with transaction := .nothingToComplete, stateChanged := h.stateChanged && setAgain }
  | _ => s

/-- STATUS, its completion point (R200). -/
def execStatusCompletionPoint (t : Time) (s : State) : Host.Outcome State Fault Refusal :=
  whenPowered t State.completeStatus s

/-! ## The command queue and the completion queue (R202, R203) -/

/-- A command record is placed at the tail of the command queue, or refused with FULL (R202). Bytes that are not yet a whole
record have no effect (R197). -/
def State.putCommand (bytes : List Byte) (s : State) : State :=
  match parseRecord bytes with
  | none => s.begin .noEffect none
  | some c =>
    if s.host.commandQueue.length < Config.commandQueueLimit then
      (s.beginAnswered .ok).withHost fun h =>
        { h with commandQueue := h.commandQueue ++ [{ record := c, cancelled := false }] }
    else s.beginAnswered .full

/-- PUT_COMMAND (R202). -/
def execPutCommand (t : Time) (bytes : List Byte) (s : State) : Host.Outcome State Fault Refusal :=
  whenPowered t (State.putCommand bytes) s

/-- The read buffer takes EMPTY, or OK and a copy of the head record (R203). -/
def State.takeCompletion (s : State) : State :=
  match s.host.completionQueue with
  | [] => s.beginRead .nothingToComplete [Answer.empty.code]
  | c :: _ => s.beginRead .completionTaken (Answer.ok.code :: c.bytes)

/-- GET_COMPLETION, its taking point (R203). -/
def execGetCompletion (t : Time) (s : State) : Host.Outcome State Fault Refusal := whenPowered t State.takeCompletion s

/-- The record in the posting slot moves to the tail of the completion queue when there is room, and the command unit becomes
IDLE (R163). -/
def State.movePosted (s : State) : State :=
  match s.unit with
  | .posting c => s.post c
  | .idle | .executing _ => s

/-- The head record is removed; at that removal the posting slot's record moves to the tail (R203, R163; log 4). -/
def State.completeCompletion (s : State) : State :=
  match s.host.transaction with
  | .completionTaken =>
    (s.withHost fun h =>
      { h with transaction := .nothingToComplete, completionQueue := h.completionQueue.tail }).movePosted
  | _ => s

/-- GET_COMPLETION_COMPLETION_POINT (R203). -/
def execGetCompletionCompletionPoint (t : Time) (s : State) : Host.Outcome State Fault Refusal :=
  whenPowered t State.completeCompletion s

/-! ## Reading the region table (R207, R208) -/

/-- The bytes of a READ-IMAGE: version, condition and bytes of the region, or version 0 and condition code 255 (R207). -/
def State.imageBytes (s : State) (region offset : Byte) (length : Nat) : List Byte :=
  match regionOf region with
  | some r =>
    if 1 ≤ length ∧ length ≤ 256 ∧ offset.toNat + length ≤ 256 then
      bytes16 (s.replica r).version ++ [(s.replica r).condition.code] ++
        readBytes (s.replica r).content offset.toNat length
    else [0, 0, 255]
  | none => [0, 0, 255]

def State.readImage (region offset : Byte) (length : BitVec 16) (s : State) : State :=
  s.beginRead .nothingToComplete (s.imageBytes region offset length.toNat)

/-- READ_IMAGE (R207). -/
def execReadImage (t : Time) (region offset : Byte) (length : BitVec 16) (s : State) : Host.Outcome State Fault Refusal :=
  whenPowered t (State.readImage region offset length) s

/-- The directory state, the station named and the claim number of a READ-REGION (10.7). -/
def EntryState.bytes : EntryState → List Byte
  | .unknown => [0, 255, 0]
  | .free => [1, 255, 0]
  | .claimed c _ => [2, BitVec.ofNat 8 c.station.val, c.number]
  | .held x _ _ => [3, BitVec.ofNat 8 x.val, 0]
  | .settling _ _ => [4, 255, 0]

def EntryState.reasonByte : EntryState → Byte
  | .settling why _ => why.code
  | .unknown | .free | .claimed _ _ | .held _ _ _ => 0

def EntryState.isLapsed : EntryState → Bool
  | .held _ _ .lapsed => true
  | _ => false

/-- The ten bytes of a READ-REGION (10.7). DESIGN CHOICE (log 57): bits 4 to 7 of byte 5, which 10.7 does not name, are 0. -/
def State.regionBytes (s : State) (r : Region) : List Byte :=
  let e := s.entry r
  let rep := s.replica r
  e.state.bytes ++
    [(match e.lastOwner with
      | some x => BitVec.ofNat 8 x.val
      | none => 255), e.state.reasonByte,
     flagBit e.state.isLapsed 0 ||| flagBit e.overheard.isSome 1 ||| flagBit (s.inReception r) 2 |||
       flagBit (s.transfer.repairList.contains r) 3,
     rep.condition.code] ++ bytes16 rep.version ++ [BitVec.ofNat 8 rep.attempts]

/-- A READ-REGION; a region over 63 returns state code 255 and zeros (R208). -/
def State.readRegion (region : Byte) (s : State) : State :=
  s.beginRead .nothingToComplete
    (match regionOf region with
      | some r => s.regionBytes r
      | none => 255 :: List.replicate 9 0)

/-- READ_REGION (R208). -/
def execReadRegion (t : Time) (region : Byte) (s : State) : Host.Outcome State Fault Refusal :=
  whenPowered t (State.readRegion region) s

/-! ## The change set (R205, R206) -/

/-- The change set is copied into the read buffer and kept as the taken set (R206). -/
def State.takeChanges (s : State) : State :=
  s.beginRead (.changesTaken s.host.changeSet [])
    (BitVec.ofNat 8 s.host.changeSet.length :: s.host.changeSet.map fun r => BitVec.ofNat 8 r.val)

/-- TAKE_CHANGES, its taking point (R206). -/
def execTakeChanges (t : Time) (s : State) : Host.Outcome State Fault Refusal := whenPowered t State.takeChanges s

/-- Every region of the taken set that is not marked as added again is removed (R206). -/
def State.completeChanges (s : State) : State :=
  match s.host.transaction with
  | .changesTaken taken again =>
    s.withHost fun h =>
      { h with
        transaction := .nothingToComplete
        changeSet := h.changeSet.filter fun r => !(taken.contains r && !again.contains r) }
  | _ => s

/-- TAKE_CHANGES_COMPLETION_POINT (R206). -/
def execTakeChangesCompletionPoint (t : Time) (s : State) : Host.Outcome State Fault Refusal :=
  whenPowered t State.completeChanges s

/-! ## ABORT and ABORT-ALL (R204, R179 to R181, R193, R196) -/

def State.abort (s : State) : State := (s.beginAnswered .ok).abortRunning

/-- ABORT (R204). -/
def execAbort (t : Time) (s : State) : Host.Outcome State Fault Refusal := whenPowered t State.abort s

/-- The cancelled mark of every record in the command queue is set (R202). -/
def State.cancelQueued (s : State) : State :=
  s.withHost fun h => { h with commandQueue := h.commandQueue.map fun q => { q with cancelled := true } }

/-- ABORT_ALL (R181, R204). -/
def execAbortAll (t : Time) (s : State) : Host.Outcome State Fault Refusal :=
  whenPowered t (fun s => s.abort.cancelQueued) s

/-! ## ATTACH, DETACH and RESYNC (R110, R201) -/

def State.attach (s : State) : State :=
  if s.station = .detached then (s.beginAnswered .ok).enterListening else s.beginAnswered .wrongState

/-- ATTACH (R110). -/
def execAttach (t : Time) (s : State) : Host.Outcome State Fault Refusal := event t State.attach s

def State.detach (s : State) : State :=
  match s.station with
  | .member => (s.beginAnswered .ok).enterLeaving .detach
  | .leaving => (s.beginAnswered .ok).withMembership fun m => { m with leaveCause := some .detach }
  | .listening | .joining | .isolated => (s.beginAnswered .ok).enterDetached
  | .unconfigured | .detached => s.beginAnswered .wrongState

/-- DETACH (R110). -/
def execDetach (t : Time) (s : State) : Host.Outcome State Fault Refusal := event t State.detach s

def State.resync (s : State) : State :=
  if s.station = .member then (s.beginAnswered .ok).enterLeaving .resync else s.beginAnswered .wrongState

/-- RESYNC (R110). -/
def execResync (t : Time) (s : State) : Host.Outcome State Fault Refusal := event t State.resync s

/-! ## Counters (R209) -/

/-- The six counters are copied; with a clear byte of 0 nothing is left to complete (R209). -/
def State.takeCounters (clear : Byte) (s : State) : State :=
  s.beginRead (if clear = 0 then .nothingToComplete else .countersTaken s.host.counters) s.host.counters.bytes

/-- READ_COUNTERS, its taking point (R209). -/
def execReadCounters (t : Time) (clear : Byte) (s : State) : Host.Outcome State Fault Refusal :=
  whenPowered t (State.takeCounters clear) s

/-- Each counter becomes its present value less the value copied (R209). -/
def State.completeCounters (s : State) : State :=
  match s.host.transaction with
  | .countersTaken copy =>
    s.withHost fun h => { h with transaction := .nothingToComplete, counters := h.counters.less copy }
  | _ => s

/-- READ_COUNTERS_COMPLETION_POINT (R209). -/
def execReadCountersCompletionPoint (t : Time) (s : State) : Host.Outcome State Fault Refusal :=
  whenPowered t State.completeCounters s

/-! ## The host's bytes (R197; 10.7) -/

/-- How many bytes the host must send after byte 0, to a transaction whose bytes after byte 0 are so far these; none for a
code that is not assigned (10.7). -/
def hostLength (code : Byte) (sent : List Byte) : Option Nat :=
  match code.toNat with
  | 1 => some 4
  | 2 | 4 | 7 | 8 | 9 | 10 | 11 | 12 => some 0
  | 3 => some (15 + recordDataLength (sent.getD 1 0) (word16 (sent.getD 4 0) (sent.getD 5 0)).toNat)
  | 5 => some 4
  | 6 | 13 => some 1
  | _ => none

/-- The transaction that a code names with the bytes that the host sent after it (10.7). -/
def transactionRow (t : Time) (code : Byte) (sent : List Byte) : Instr :=
  match code.toNat with
  | 1 => .configure t (sent.getD 0 0) (sent.getD 1 0) (sent.getD 2 0) (sent.getD 3 0)
  | 2 => .status t
  | 3 => .putCommand t sent
  | 4 => .getCompletion t
  | 5 => .readImage t (sent.getD 0 0) (sent.getD 1 0) (word16 (sent.getD 2 0) (sent.getD 3 0))
  | 6 => .readRegion t (sent.getD 0 0)
  | 7 => .takeChanges t
  | 8 => .abort t
  | 9 => .abortAll t
  | 10 => .attach t
  | 11 => .detach t
  | 12 => .resync t
  | 13 => .readCounters t (sent.getD 0 0)
  | _ => .unassignedTransaction t code

/-- The row of the taking point, the end of the last byte that the host must send: at once for a code that is not assigned
(R197). `bytes` are the whole bytes sent since nCS fell, the last of them ending at `t`. -/
def takingRow (t : Time) (bytes : List Byte) : Option Instr :=
  match bytes with
  | [] => none
  | code :: sent => if (hostLength code sent).getD 0 = sent.length then some (transactionRow t code sent) else none

/-- The row of the completion point, the end of the last required byte returned, which is the read buffer's last, for a
transaction that has an effect left to make (R197, R200, R203, R206, R209). `returned` whole bytes have been shifted out
since the taking point. -/
def State.completionRow (s : State) (t : Time) (returned : Nat) : Option Instr :=
  if returned = s.host.readBuffer.length then
    match s.host.transaction with
    | .statusTaken _ => some (.statusCompletionPoint t)
    | .completionTaken => some (.getCompletionCompletionPoint t)
    | .changesTaken _ _ => some (.takeChangesCompletionPoint t)
    | .countersTaken _ => some (.readCountersCompletionPoint t)
    | .none | .noEffect | .nothingToComplete => none
  else none

/-- A power-on or reset has ended the transaction whose nCS fell at `fell`, though nCS may still be low (R197). -/
def State.endedByReset (s : State) (fell : Time) : Bool := fell < s.lastReset

/-- The row that the end of a whole byte at `t` gives: `bytes` are those that the host has sent since nCS fell at `fell`, this
one last. Bytes beyond the last required byte give none, and so do all bytes after a reset in mid-transaction (R197). -/
def State.hostRow (s : State) (fell t : Time) (bytes : List Byte) : Option Instr :=
  if s.endedByReset fell then none
  else
    (takingRow t bytes).or
      (match bytes with
        | [] => none
        | code :: sent => s.completionRow t (sent.length - (hostLength code sent).getD 0))

/-- The byte that SDO shifts out while the host sends the byte after `bytes`, with nCS low since `fell`: the link byte during
byte 0, from the state at the fall; from the taking point on, State.sdoByte. DESIGN CHOICE (log 56): before the taking point,
and after a reset in mid-transaction, a free value. -/
def State.sdoShifted (s : State) (fell : Time) (bytes : List Byte) : Byte :=
  match bytes with
  | [] => s.linkByte
  | code :: sent =>
    let needed := (hostLength code sent).getD 0
    let stated := if s.endedByReset fell || sent.length < needed then none else s.sdoByte (sent.length - needed)
    stated.getD (Config.sdoUnstated fell sent.length)

/-! ## The rest (R197) -/

/-- UNASSIGNED_TRANSACTION: no effect, and SDO shifts 0 (R197). -/
def execUnassignedTransaction (t : Time) (_code : Byte) (s : State) : Host.Outcome State Fault Refusal :=
  whenPowered t (fun s => s.begin .noEffect none) s

/-- TRANSACTION_END: nCS rises. What was not completed is not: nothing is removed or cleared, and the marks of a TAKE-CHANGES
are discarded (R197, R206). -/
def execTransactionEnd (t : Time) (s : State) : Host.Outcome State Fault Refusal :=
  whenPowered t (fun s => s.begin .none none) s

end Sys2Proof.Machine
end

