-- ==== Sys2Proof/Machine/CommandRows.lean ====
section
/-! DEFINITION. The command unit's rows: the takings of the eight command kinds with their checks (R165, R166, R172 to R177,
R182, R183, R194), the groups of a SCAN (R195), the posting slot (R163) and the open wait deadline (R171). -/

namespace Sys2Proof.Machine

/-! ## Taking (R161, R165) -/

/-- The head record of the command queue is taken when the unit is IDLE and the record is of the row's sort (R161; log 3). -/
def State.take (p : QueuedCommand → Bool) (f : CommandRecord → State → State) (s : State) : State :=
  match s.unit, s.host.commandQueue with
  | .idle, q :: rest => if p q then f q.record (s.withHost fun h => { h with commandQueue := rest }) else s
  | _, _ => s

/-- The record at the head is of this kind and not cancelled; `none` stands for the unknown kinds (R165). -/
def QueuedCommand.isKind (k : Option CommandKind) (q : QueuedCommand) : Bool := !q.cancelled && kindOf q.record.kind == k

/-- The version field of a command that ends at its start: the replica's version, or 0 when the region is out of range
(R162). -/
def State.versionAtStart (s : State) (c : CommandRecord) : Version :=
  match regionOf c.region with
  | some r => (s.replica r).version
  | none => 0

/-- A command ends at its start, with no request to any block (R165, R181, R182). -/
def State.endAtStart (s : State) (c : CommandRecord) (status : Status) : State :=
  s.post { tag := c.tag, kind := c.kind, status := status, reason := .none, version := s.versionAtStart c, count := 0,
           position := 0, found := false, exhausted := false, disturbed := false, released := false }

/-- Orders 2 and 3 of R165: the region and the other fields, then the station state MEMBER. -/
def State.startInMember (s : State) (c : CommandRecord) (fieldsValid : Bool) (f : Region → State) : State :=
  match regionOf c.region with
  | some r =>
    if !fieldsValid then s.endAtStart c .invalid
    else if s.station != .member then s.endAtStart c .notMember
    else f r
  | none => s.endAtStart c .invalid

/-- A command goes into execution on region `r`. -/
def CommandRecord.runOn (c : CommandRecord) (r : Region) (p : Progress) : Running :=
  { record := c, region := r, abort := false, progress := p }

/-! ## OPEN (R166) -/

/-- The open wait deadline at the start; a limit of 0 puts it at the start, before any outcome (R166, R171; log 37). -/
def State.waitClock (s : State) (c : CommandRecord) : WaitClock :=
  if !c.wait then .noWait
  else
    let limit := s.host.config.elim 0 fun k => k.openWaitLimit.toNat
    if limit = 0 then .expired else .till (s.now + Config.milliseconds limit)

def State.startOpen (c : CommandRecord) (s : State) : State :=
  s.startInMember c true fun r =>
    if s.heldUnlapsed r then s.endAtStart c .already
    else if !s.isCurrent r then s.endAtStart c .replicaNotCurrent
    else s.attemptClaim (c.runOn r (.openClaimQueued (s.waitClock c) .none)) (s.waitClock c) .none

/-- OPEN (R166). -/
def execOpen (t : Time) (s : State) : Host.Outcome State Fault Refusal :=
  whenPowered t (State.take (QueuedCommand.isKind (some .open)) State.startOpen) s

/-! ## CLOSE and RENEW (R172, R173) -/

def State.startClose (c : CommandRecord) (s : State) : State :=
  s.startInMember c true fun r =>
    if s.heldUnlapsed r then (s.placeRelease r true).proceed (c.runOn r .close) .close else s.endAtStart c .notOwner

/-- CLOSE (R172). -/
def execClose (t : Time) (s : State) : Host.Outcome State Fault Refusal :=
  whenPowered t (State.take (QueuedCommand.isKind (some .close)) State.startClose) s

def State.startRenew (c : CommandRecord) (s : State) : State :=
  s.startInMember c true fun r =>
    if s.heldUnlapsed r then (s.place .originated (.renew r)).proceed (c.runOn r .renew) .renew
    else s.endAtStart c .notOwner

/-- RENEW (R173). -/
def execRenew (t : Time) (s : State) : Host.Outcome State Fault Refusal :=
  whenPowered t (State.take (QueuedCommand.isKind (some .renew)) State.startRenew) s

/-! ## WRITE (R174) -/

/-- The UPDATE of a WRITE, with the command's data and mask fixed at its placing. -/
def CommandRecord.writeItem (c : CommandRecord) (r : Region) : Item :=
  .update r c.offset.toNat (if c.masked then some c.mask else none) c.closeAfter (.bytes c.data)

def State.startWrite (c : CommandRecord) (s : State) : State :=
  s.startInMember c c.writeFieldsValid fun r =>
    if !s.heldUnlapsed r then s.endAtStart c .notOwner
    else if !s.isCurrent r then s.endAtStart c .replicaNotCurrent
    else (s.place .originated (c.writeItem r)).proceed (c.runOn r .write) .write

/-- WRITE (R174). -/
def execWrite (t : Time) (s : State) : Host.Outcome State Fault Refusal :=
  whenPowered t (State.take (QueuedCommand.isKind (some .write)) State.startWrite) s

/-! ## REPAIR (R177) -/

def State.startRepair (c : CommandRecord) (s : State) : State :=
  match regionOf c.region with
  | none => s.endAtStart c .invalid
  | some r =>
    match (s.replica r).condition with
    | .lost => (s.returnLost r).endAtStart c .done
    | .stale | .current => s.endAtStart c .done
    | .unsynced => s.endAtStart c .notMember

/-- REPAIR (R177). -/
def execRepair (t : Time) (s : State) : Host.Outcome State Fault Refusal :=
  whenPowered t (State.take (QueuedCommand.isKind (some .repair)) State.startRepair) s

/-! ## COPY and FILL (R182 to R185) -/

/-- The first chunk is placed. -/
def State.startChunks (s : State) (c : CommandRecord) (r : Region) (source : Option Region) : State :=
  s.placeChunk (c.runOn r (.chunk source 0 0 0 0 false)) source 0 false

def State.startCopy (c : CommandRecord) (s : State) : State :=
  match regionOf c.secondRegion with
  | none => s.endAtStart c .invalid
  | some source =>
    s.startInMember c c.copyFieldsValid fun r =>
      if !s.heldUnlapsed r then s.endAtStart c .notOwner
      else if !s.isCurrent source then s.endAtStart c .staleSource
      else if !s.isCurrent r then s.endAtStart c .replicaNotCurrent
      else s.startChunks c r (some source)

/-- COPY (R182). -/
def execCopy (t : Time) (s : State) : Host.Outcome State Fault Refusal :=
  whenPowered t (State.take (QueuedCommand.isKind (some .copy)) State.startCopy) s

def State.startFill (c : CommandRecord) (s : State) : State :=
  s.startInMember c c.fillFieldsValid fun r =>
    if !s.heldUnlapsed r then s.endAtStart c .notOwner
    else if !s.isCurrent r then s.endAtStart c .replicaNotCurrent
    else s.startChunks c r none

/-- FILL (R183). -/
def execFill (t : Time) (s : State) : Host.Outcome State Fault Refusal :=
  whenPowered t (State.take (QueuedCommand.isKind (some .fill)) State.startFill) s

/-! ## SCAN (R194 to R196) -/

/-- A byte matches when it and the value agree in every bit that the match mask sets (R195). -/
def CommandRecord.matchesByte (c : CommandRecord) (b : Byte) : Bool := b &&& c.matchMask == c.value &&& c.matchMask

/-- The offset `i` bytes on from `next` in the direction of the scan (R195). -/
def CommandRecord.scanOffset (c : CommandRecord) (next : Int) (i : Nat) : Int := if c.descending then next - i else next + i

/-- One group of a SCAN is examined: the next eight bytes, or the unexamined count when fewer remain (R195). -/
def State.examineGroup (s : State) (run : Running) (next : Int) (unexamined : Nat) (disturbed : Bool) : State :=
  let c := run.record
  let n := min 8 unexamined
  let content := (s.replica run.region).content
  let run := { run with progress := .scan next unexamined disturbed }
  match (List.range n).find? fun i => c.matchesByte (readByte content (c.scanOffset next i).toNat) with
  | some i => s.endCommand run .done (count := unexamined - (i + 1)) (position := c.scanOffset next i) (found := true)
  | none =>
    if unexamined - n = 0 then s.endCommand run .done (count := 0) (position := c.scanOffset next n) (exhausted := true)
    else s.proceed run (.scan (c.scanOffset next n) (unexamined - n) disturbed)

def State.startScan (c : CommandRecord) (s : State) : State :=
  match regionOf c.region with
  | none => s.endAtStart c .invalid
  | some r =>
    if !c.scanFieldsValid then s.endAtStart c .invalid
    else if !s.isCurrent r then s.endAtStart c .staleSource
    else s.examineGroup (c.runOn r (.scan c.offset.toNat c.length.toNat false)) c.offset.toNat c.length.toNat false

/-- SCAN: the checks and the first group (R194, R195). -/
def execScan (t : Time) (s : State) : Host.Outcome State Fault Refusal :=
  whenPowered t (State.take (QueuedCommand.isKind (some .scan)) State.startScan) s

/-- The next group of the SCAN in execution. -/
def State.nextGroup (s : State) : State :=
  match s.running with
  | some run =>
    match run.progress with
    | .scan next unexamined disturbed => s.examineGroup run next unexamined disturbed
    | _ => s
  | none => s

/-- SCAN_GROUP (R195; log 3). -/
def execScanGroup (t : Time) (s : State) : Host.Outcome State Fault Refusal := whenPowered t State.nextGroup s

/-! ## Unknown kinds and cancelled records (R165, R181) -/

/-- UNKNOWN_KIND: INVALID at its start (R165). -/
def execUnknownKind (t : Time) (s : State) : Host.Outcome State Fault Refusal :=
  whenPowered t (State.take (QueuedCommand.isKind none) fun c s => s.endAtStart c .invalid) s

/-- CANCELLED_RECORD: ABORTED at its start, without checks (R181). -/
def execCancelledRecord (t : Time) (s : State) : Host.Outcome State Fault Refusal :=
  whenPowered t (State.take QueuedCommand.cancelled fun c s => s.endAtStart c .aborted) s

/-! ## The posting slot and the open wait deadline (R163, R171) -/

/-- POSTING_SLOT_MOVE (R163; log 4). -/
def execPostingSlotMove (t : Time) (s : State) : Host.Outcome State Fault Refusal := whenPowered t State.movePosted s

/-- The open wait deadline expires: a WAITING OPEN ends WAIT_EXPIRED with its last reason; in the later stages the deadline
counts as expired and the claim runs to its outcome (R171). -/
def State.expireOpenWait (s : State) : State :=
  match s.running with
  | some run =>
    match run.progress with
    | .openWaiting (.till d) last => if d ≤ s.now then s.endCommand run .waitExpired last else s
    | .openClaimQueued (.till d) before => if d ≤ s.now then s.proceed run (.openClaimQueued .expired before) else s
    | .openClaimPending (.till d) => if d ≤ s.now then s.proceed run (.openClaimPending .expired) else s
    | _ => s
  | none => s

/-- OPEN_WAIT_DEADLINE_EXPIRY (R171). -/
def execOpenWaitDeadlineExpiry (t : Time) (s : State) : Host.Outcome State Fault Refusal :=
  whenPowered t State.expireOpenWait s

end Sys2Proof.Machine
end

