-- ==== Sys2Proof/Machine/PowerRows.lean ====
section
/-! DEFINITION. The rows of power and the nRESET pin (R96; 00, Electrical note). -/

namespace Sys2Proof.Machine

/-- The station after a reset at instant `t`: every block at its initial state; the waiting commands stay (R96; log 5). -/
def State.restart (s : State) (t : Time) : State := { State.resetAt (max s.now t) with pending := s.pending }

/-- POWER_ON: every block goes to its initial state (R96). -/
def execPowerOn (t : Time) (s : State) : Host.Outcome State Fault Refusal := .next (s.restart t)

/-- NRESET: as power-on; a transaction in progress ends with no effect (R96, R197; log 40). Without supply it has no effect
(log 6). -/
def execNreset (t : Time) (s : State) : Host.Outcome State Fault Refusal :=
  .next (if s.powered then s.restart t else s)

/-- The supply falls below its range: the line driver turns off, so that a frame in flight is cut; ATTN is high (00,
Electrical note). PRESUMED (log 6): every block stands as it was. -/
def State.loseSupply (s : State) : State :=
  { s with powered := false, liu := { s.liu with transmitter := .off } }

/-- POWER_BELOW_OPERATING_RANGE (R96; 00, Electrical note). -/
def execPowerBelowOperatingRange (t : Time) (s : State) : Host.Outcome State Fault Refusal :=
  whenPowered t State.loseSupply s

end Sys2Proof.Machine
end

