-- ==== Sys2Proof/Machine/TimerRows.lean ====
section
/-! DEFINITION. The expiries of deadlines and timers. A row acts when its deadline is set and has come; otherwise it has no
effect (log 2). -/

namespace Sys2Proof.Machine

/-! ## Directory deadlines (R5) -/

/-- The confirmation deadline of region `r` expires (R26). -/
def State.confirmationExpires (r : Region) (s : State) : State :=
  match (s.entry r).state with
  | .claimed c d => if d ≤ s.now then s.confirm r c else s
  | .unknown | .free | .held _ _ _ | .settling _ _ => s

/-- CONFIRMATION_EXPIRY (R26, R37). -/
def execConfirmationExpiry (t : Time) (region : Region) (s : State) : Host.Outcome State Fault Refusal :=
  event t (State.confirmationExpires region) s

/-- The lease deadline of region `r` expires (R30). -/
def State.leaseExpires (r : Region) (s : State) : State :=
  match (s.entry r).state with
  | .held x d _ => if d ≤ s.now then s.expireLease r x else s
  | .unknown | .free | .claimed _ _ | .settling _ _ => s

/-- LEASE_EXPIRY (R30). -/
def execLeaseExpiry (t : Time) (region : Region) (s : State) : Host.Outcome State Fault Refusal :=
  event t (State.leaseExpires region) s

/-- The settle deadline of region `r` expires (R33). -/
def State.settleExpires (r : Region) (s : State) : State :=
  match (s.entry r).state with
  | .settling _ d => if d ≤ s.now then s.expireSettle r else s
  | .unknown | .free | .claimed _ _ | .held _ _ _ => s

/-- SETTLE_EXPIRY (R33). -/
def execSettleExpiry (t : Time) (region : Region) (s : State) : Host.Outcome State Fault Refusal :=
  event t (State.settleExpires region) s

/-- The owner-side deadline of region `r` expires (R31). -/
def State.ownerSideExpires (r : Region) (s : State) : State :=
  match (s.entry r).state with
  | .held x lease (.running d) => if d ≤ s.now then s.lapse r x lease else s
  | .unknown | .free | .claimed _ _ | .held _ _ _ | .settling _ _ => s

/-- OWNER_SIDE_EXPIRY (R31). -/
def execOwnerSideExpiry (t : Time) (region : Region) (s : State) : Host.Outcome State Fault Refusal :=
  event t (State.ownerSideExpires region) s

/-- The adoption deadline of region `r`'s overheard claim expires (R17). -/
def State.overheardExpires (r : Region) (s : State) : State :=
  match (s.entry r).overheard with
  | some o => if o.adoption ≤ s.now then s.adopt r o else s
  | none => s

/-- OVERHEARD_CLAIM_EXPIRY (R17). -/
def execOverheardClaimExpiry (t : Time) (region : Region) (s : State) : Host.Outcome State Fault Refusal :=
  event t (State.overheardExpires region) s

/-! ## The budget list and the objections (R39, R158) -/

/-- The head entry of the budget list has reached 1,000 µs of age and leaves it (R39). -/
def State.removeAged (s : State) : State :=
  match s.budget with
  | e :: rest => if e.live s.now then s else { s with budget := rest }
  | [] => s

/-- BUDGET_ENTRY_REMOVAL (R39, R170). -/
def execBudgetEntryRemoval (t : Time) (s : State) : Host.Outcome State Fault Refusal := event t State.removeAged s

/-- OBJECTIONS_WITHDRAWN is raised `n` times (R159). -/
def State.raiseObjectionsBy : Nat → State → State
  | 0, s => s
  | n + 1, s => State.raiseObjectionsBy n s.raiseObjectionsWithdrawn

/-- Every OBJECT that has not begun 150 µs after its CLAIM's arrival is withdrawn and counted (R158; log 26). -/
def State.withdrawDueObjections (s : State) : State :=
  let kept := dropUnbegun (s.liu.flying .reply) (Item.objectionDue s.now) s.liu.reply
  (s.withLiu fun l => { l with reply := kept }).raiseObjectionsBy (s.liu.reply.length - kept.length)

/-- OBJECTION_DEADLINE_EXPIRY (R158, R159). -/
def execObjectionDeadlineExpiry (t : Time) (s : State) : Host.Outcome State Fault Refusal :=
  event t State.withdrawDueObjections s

/-! ## The transfer unit (R84, R91, R92) -/

/-- The part deadline expires: the reception is abandoned (R84, R88). -/
def State.partDeadlineExpires (s : State) : State :=
  match s.transfer.reception with
  | some rec => if rec.deadline ≤ s.now then s.abandonReception else s
  | none => s

/-- PART_DEADLINE_EXPIRY (R84). -/
def execPartDeadlineExpiry (t : Time) (s : State) : Host.Outcome State Fault Refusal := event t State.partDeadlineExpires s

/-- The refresh timer expires, if no part 0 came first and stopped it (R92, R93). -/
def State.refreshTimerExpires (s : State) : State :=
  match s.transfer.refreshTimer with
  | some d => if d ≤ s.now then s.refreshTimedOut else s
  | none => s

/-- REFRESH_TIMER_EXPIRY (R92). -/
def execRefreshTimerExpiry (t : Time) (s : State) : Host.Outcome State Fault Refusal := event t State.refreshTimerExpires s

/-- REPAIR_REQUEST (R91; log 3). -/
def execRepairRequest (t : Time) (s : State) : Host.Outcome State Fault Refusal := event t State.requestRepair s

/-! ## The membership controller (R101, R105, R108, R118, R123, R124) -/

/-- The presence timer expires: one PRESENCE is placed, unless one is queued, in flight or held (R108). -/
def State.presenceTimerExpires (s : State) : State :=
  match s.membership.presenceTimer with
  | some d =>
    if d ≤ s.now then
      let s := s.withMembership fun m => { m with presenceTimer := none }
      if s.liu.holds .originated Item.isPresence then s else s.place .originated .presence
    else s
  | none => s

/-- PRESENCE_TIMER_EXPIRY (R108). -/
def execPresenceTimerExpiry (t : Time) (s : State) : Host.Outcome State Fault Refusal := event t State.presenceTimerExpires s

/-- The listen timer expires: JOINING when a member was heard (R101), otherwise the alone start (R102). -/
def State.listenTimerExpires (s : State) : State :=
  match s.membership.listenTimer with
  | some d =>
    if d ≤ s.now then (if s.membership.memberHeard then s.enterJoining else s.aloneStart) else s
  | none => s

/-- LISTEN_TIMER_EXPIRY (R101, R102). -/
def execListenTimerExpiry (t : Time) (s : State) : Host.Outcome State Fault Refusal := event t State.listenTimerExpires s

/-- The absence deadline of station `x` expires: its entry becomes ABSENT, and the notice is handed (R105, R106). -/
def State.absenceExpires (x : Station) (s : State) : State :=
  match (s.member x).absence with
  | some d => if d ≤ s.now then (s.setMember x MemberEntry.absent).stationGone x .ownerAbsent else s
  | none => s

/-- ABSENCE_DEADLINE_EXPIRY (R105, R35). -/
def execAbsenceDeadlineExpiry (t : Time) (station : Station) (s : State) : Host.Outcome State Fault Refusal :=
  event t (State.absenceExpires station) s

/-- The isolation timer expires: the station, silent until then, enters LISTENING and sends nothing before its listen period is
over (R106, R118). -/
def State.isolationExpires (s : State) : State :=
  match s.membership.isolationTimer with
  | some d => if d ≤ s.now then s.enterListening else s
  | none => s

/-- ISOLATION_TIMER_EXPIRY (R118). -/
def execIsolationTimerExpiry (t : Time) (s : State) : Host.Outcome State Fault Refusal := event t State.isolationExpires s

/-- The gap deadline expires: the join fails, and the responder is kept (R124, R125). -/
def State.gapExpires (s : State) : State :=
  match s.membership.join.bind (·.gap) with
  | some d => if d ≤ s.now then s.joinFails true else s
  | none => s

/-- GAP_DEADLINE_EXPIRY (R124). -/
def execGapDeadlineExpiry (t : Time) (s : State) : Host.Outcome State Fault Refusal := event t State.gapExpires s

/-- The renewal deadline expires: one renewal JOIN-REQ is placed, unless a JOIN-REQ is queued, in flight or held (R123). -/
def State.renewalExpires (s : State) : State :=
  match s.membership.join.bind (·.renewal) with
  | some d =>
    if d ≤ s.now then
      let s := s.withMembership fun m => { m with join := m.join.map fun rec => { rec with renewal := none } }
      if s.liu.holds .originated Item.isJoinReq then s else s.place .originated (.joinReq true)
    else s
  | none => s

/-- RENEWAL_DEADLINE_EXPIRY (R123). -/
def execRenewalDeadlineExpiry (t : Time) (s : State) : Host.Outcome State Fault Refusal := event t State.renewalExpires s

end Sys2Proof.Machine
end

