-- ==== Sys2Proof/Machine/Dispatch.lean ====
section
/-! DEFINITION. The meaning of every command: one arm per row of spec/opcode_table.json. -/

namespace Sys2Proof.Machine

def exec (i : Instr) (s : State) : Host.Outcome State Fault Refusal :=
  match i with
  | .powerOn t => Sys2Proof.Machine.execPowerOn t s
  | .nreset t => Sys2Proof.Machine.execNreset t s
  | .configure t station leaseCode openWaitLimit notifyMask => Sys2Proof.Machine.execConfigure t station leaseCode openWaitLimit notifyMask s
  | .status t => Sys2Proof.Machine.execStatus t s
  | .statusCompletionPoint t => Sys2Proof.Machine.execStatusCompletionPoint t s
  | .putCommand t bytes => Sys2Proof.Machine.execPutCommand t bytes s
  | .getCompletion t => Sys2Proof.Machine.execGetCompletion t s
  | .getCompletionCompletionPoint t => Sys2Proof.Machine.execGetCompletionCompletionPoint t s
  | .readImage t region offset length => Sys2Proof.Machine.execReadImage t region offset length s
  | .readRegion t region => Sys2Proof.Machine.execReadRegion t region s
  | .takeChanges t => Sys2Proof.Machine.execTakeChanges t s
  | .takeChangesCompletionPoint t => Sys2Proof.Machine.execTakeChangesCompletionPoint t s
  | .abort t => Sys2Proof.Machine.execAbort t s
  | .abortAll t => Sys2Proof.Machine.execAbortAll t s
  | .attach t => Sys2Proof.Machine.execAttach t s
  | .detach t => Sys2Proof.Machine.execDetach t s
  | .resync t => Sys2Proof.Machine.execResync t s
  | .readCounters t clear => Sys2Proof.Machine.execReadCounters t clear s
  | .readCountersCompletionPoint t => Sys2Proof.Machine.execReadCountersCompletionPoint t s
  | .unassignedTransaction t code => Sys2Proof.Machine.execUnassignedTransaction t code s
  | .transactionEnd t => Sys2Proof.Machine.execTransactionEnd t s
  | .openRegion t => Sys2Proof.Machine.execOpen t s
  | .closeRegion t => Sys2Proof.Machine.execClose t s
  | .renewRegion t => Sys2Proof.Machine.execRenew t s
  | .writeRegion t => Sys2Proof.Machine.execWrite t s
  | .repairRegion t => Sys2Proof.Machine.execRepair t s
  | .copy t => Sys2Proof.Machine.execCopy t s
  | .fill t => Sys2Proof.Machine.execFill t s
  | .scan t => Sys2Proof.Machine.execScan t s
  | .unknownKind t => Sys2Proof.Machine.execUnknownKind t s
  | .cancelledRecord t => Sys2Proof.Machine.execCancelledRecord t s
  | .scanGroup t => Sys2Proof.Machine.execScanGroup t s
  | .postingSlotMove t => Sys2Proof.Machine.execPostingSlotMove t s
  | .openWaitDeadlineExpiry t => Sys2Proof.Machine.execOpenWaitDeadlineExpiry t s
  | .claimArrival t sender region number => Sys2Proof.Machine.execClaimArrival t sender region number s
  | .objectArrival t sender claim region reason owner version => Sys2Proof.Machine.execObjectArrival t sender claim region reason owner version s
  | .updateArrival t sender u => Sys2Proof.Machine.execUpdateArrival t sender u s
  | .renewArrival t sender region => Sys2Proof.Machine.execRenewArrival t sender region s
  | .releaseArrival t sender region finalVersion => Sys2Proof.Machine.execReleaseArrival t sender region finalVersion s
  | .presenceArrival t sender state heldCount => Sys2Proof.Machine.execPresenceArrival t sender state heldCount s
  | .refreshReqArrival t sender region => Sys2Proof.Machine.execRefreshReqArrival t sender region s
  | .refreshDataArrival t sender p => Sys2Proof.Machine.execRefreshDataArrival t sender p s
  | .joinReqArrival t sender => Sys2Proof.Machine.execJoinReqArrival t sender s
  | .dirArrival t sender joiner group entries => Sys2Proof.Machine.execDirArrival t sender joiner group entries s
  | .snapArrival t sender p => Sys2Proof.Machine.execSnapArrival t sender p s
  | .syncEndArrival t sender joiner => Sys2Proof.Machine.execSyncEndArrival t sender joiner s
  | .leaveArrival t sender => Sys2Proof.Machine.execLeaveArrival t sender s
  | .faultyFrameEnd t => Sys2Proof.Machine.execFaultyFrameEnd t s
  | .lineActivityDeferral t activityEnd => Sys2Proof.Machine.execLineActivityDeferral t activityEnd s
  | .accessInstant t => Sys2Proof.Machine.execAccessInstant t s
  | .collision t => Sys2Proof.Machine.execCollision t s
  | .jamEnd t => Sys2Proof.Machine.execJamEnd t s
  | .waitingPlacingRequest t queue => Sys2Proof.Machine.execWaitingPlacingRequest t queue s
  | .confirmationExpiry t region => Sys2Proof.Machine.execConfirmationExpiry t region s
  | .leaseExpiry t region => Sys2Proof.Machine.execLeaseExpiry t region s
  | .settleExpiry t region => Sys2Proof.Machine.execSettleExpiry t region s
  | .ownerSideExpiry t region => Sys2Proof.Machine.execOwnerSideExpiry t region s
  | .overheardClaimExpiry t region => Sys2Proof.Machine.execOverheardClaimExpiry t region s
  | .budgetEntryRemoval t => Sys2Proof.Machine.execBudgetEntryRemoval t s
  | .objectionDeadlineExpiry t => Sys2Proof.Machine.execObjectionDeadlineExpiry t s
  | .partDeadlineExpiry t => Sys2Proof.Machine.execPartDeadlineExpiry t s
  | .refreshTimerExpiry t => Sys2Proof.Machine.execRefreshTimerExpiry t s
  | .presenceTimerExpiry t => Sys2Proof.Machine.execPresenceTimerExpiry t s
  | .listenTimerExpiry t => Sys2Proof.Machine.execListenTimerExpiry t s
  | .absenceDeadlineExpiry t station => Sys2Proof.Machine.execAbsenceDeadlineExpiry t station s
  | .isolationTimerExpiry t => Sys2Proof.Machine.execIsolationTimerExpiry t s
  | .gapDeadlineExpiry t => Sys2Proof.Machine.execGapDeadlineExpiry t s
  | .renewalDeadlineExpiry t => Sys2Proof.Machine.execRenewalDeadlineExpiry t s
  | .repairRequest t => Sys2Proof.Machine.execRepairRequest t s
  | .powerBelowOperatingRange t => Sys2Proof.Machine.execPowerBelowOperatingRange t s

end Sys2Proof.Machine
end

