-- ==== Sys2Proof/Machine/Step.lean ====
section
/-! DEFINITION. A step of the station: the command at the front of the queue is taken and executed. -/

namespace Sys2Proof.Machine

/-- One step: the oldest waiting command acts on the station with the queue's rest; an empty queue is idle (log 5). -/
def step (s : State) : Host.Outcome State Fault Refusal :=
  match s.pending with
  | [] => .next s
  | c :: rest => exec c { s with pending := rest }

/-- `s` with the command that the word spells at the front of its queue; `s` itself where the word spells none (log 32). -/
def State.withFetchWord (s : State) (nbits w : Nat) : State :=
  match decodeTableWord nbits w with
  | some c => { s with pending := c :: s.pending }
  | none => s

end Sys2Proof.Machine
end

