-- ==== Sys2Proof/Safety.lean ====
section
/-! DEFINITION. What a sound station is: the invariants that the manual states of the records and that every step keeps,
each a predicate of the state. -/

namespace Sys2Proof.Machine

/-! ## The image and the buffers (R50, R76, R80) -/

/-- The bytes of an UPDATE lie within the region (R55, R141). -/
def updateFits (u : Update) : Bool := u.offset.toNat + u.data.length ≤ 256

/-- A reception: its buffer is in canonical form, its catch-up list holds at most 16 entries, each within the region (R80,
R85). -/
def Reception.sound (rec : Reception) : Bool :=
  Memory.wf rec.buffer && rec.catchUp.length ≤ Config.catchUpLimit && rec.catchUp.all fun e => updateFits e.update

/-- Every replica, the transfer buffer and the reception buffer are in canonical form. -/
def State.imageSound (s : State) : Prop :=
  (∀ r, Memory.wf (s.replica r).content = true) ∧
    (∀ b, s.transfer.buffer = some b → Memory.wf b.content = true) ∧
    (∀ rec, s.transfer.reception = some rec → rec.sound = true)

/-! ## The queues and lists (R38, R72, R90, R154, R202, R203) -/

/-- The repair list holds each region at most once, and STALE regions only; a region in an open refresh reception is STALE and
stands apart from the list until the reception ends (R81, R88, R90). -/
def State.repairListSound (s : State) : Prop :=
  s.transfer.repairList.Nodup ∧ (∀ r, r ∈ s.transfer.repairList → (s.replica r).condition = .stale) ∧
    ∀ rec, s.transfer.reception = some rec → rec.kind = .refresh →
      (s.replica rec.region).condition = .stale ∧ rec.region ∉ s.transfer.repairList

/-- No list of the station holds more than the manual allows it. -/
def State.listsBounded (s : State) : Prop :=
  s.budget.length ≤ Config.budgetLimit ∧ s.transfer.jobs.length ≤ Config.jobLimit ∧
    s.liu.reply.length ≤ Config.transmitQueueLimit ∧ s.liu.originated.length ≤ Config.transmitQueueLimit ∧
    s.host.commandQueue.length ≤ Config.commandQueueLimit ∧
    s.host.completionQueue.length ≤ Config.completionQueueLimit ∧ s.transfer.repairList.length ≤ 64 ∧ s.repairListSound

/-! ## The directory (R1, R13, R16) -/

/-- An entry: SETTLING records a last owner (R13), UNKNOWN has no optional field (R2), and an overheard claim stands only in
FREE, HELD and SETTLING (R1). -/
def Entry.sound (e : Entry) : Bool :=
  match e.state with
  | .unknown => e.lastOwner.isNone && e.overheard.isNone
  | .claimed _ _ => e.overheard.isNone
  | .settling _ _ => e.lastOwner.isSome
  | .free | .held _ _ _ => true

/-- The owner's side stands in a HELD entry exactly when this station is the owner (R1). -/
def State.ownerSideSound (s : State) (r : Region) : Bool :=
  match (s.entry r).state with
  | .held x _ side => (side != .notOwn) == s.isSelf x
  | .unknown | .free | .claimed _ _ | .settling _ _ => true

/-- Every entry is of its form, and UNKNOWN in the states in which the station takes no part in the claim protocol (R2). -/
def State.directorySound (s : State) : Prop :=
  (∀ r, (s.entry r).sound = true ∧ s.ownerSideSound r = true) ∧
    (s.station = .unconfigured ∨ s.station = .listening ∨ s.station = .detached ∨ s.station = .isolated →
      ∀ r, s.entry r = Entry.unknown)

/-! ## The station state (R96, R99, R100, R108, R111, R117, R121) -/

/-- The configuration record is written exactly outside UNCONFIGURED; each timer runs only in the states that it belongs to;
a join record stands exactly in JOINING, and a leave cause in LEAVING. -/
def State.membershipSound (s : State) : Prop :=
  (s.host.config.isSome = true ↔ s.station ≠ .unconfigured) ∧
    (s.membership.listenTimer.isSome = true → s.station = .listening) ∧
    (s.membership.isolationTimer.isSome = true → s.station = .isolated) ∧
    (s.membership.presenceTimer.isSome = true → s.station.participates = true) ∧
    (s.membership.join.isSome = true ↔ s.station = .joining) ∧
    (s.station = .leaving → s.membership.leaveCause.isSome = true)

/-! ## The terms of the statements -/

/-- The station is not LEAVING with cause RESYNC: the end of its releases then changes the LIU only (R113, R114). -/
def State.notResyncing (s : State) : Prop := s.station = .leaving → s.membership.leaveCause ≠ some .resync

/-- The row that takes a command record of kind `k`. -/
def CommandKind.row (k : CommandKind) (t : Time) : Instr :=
  match k with
  | .open => .openRegion t
  | .close => .closeRegion t
  | .renew => .renewRegion t
  | .write => .writeRegion t
  | .repair => .repairRegion t
  | .copy => .copy t
  | .fill => .fill t
  | .scan => .scan t

/-- Order 2 of R165 beside the command's own region: the fields that each kind checks (R165, R182, R183, R194). -/
def CommandRecord.fieldsValid (c : CommandRecord) : CommandKind → Bool
  | .open | .close | .renew | .repair => true
  | .write => c.writeFieldsValid
  | .copy => (regionOf c.secondRegion).isSome && c.copyFieldsValid
  | .fill => c.fillFieldsValid
  | .scan => c.scanFieldsValid

/-- The command queue's head is this record, not cancelled, and the command unit is free to take it. -/
def State.readyFor (s : State) (c : CommandRecord) (rest : List QueuedCommand) : Prop :=
  s.powered = true ∧ s.unit = .idle ∧ s.host.commandQueue = { record := c, cancelled := false } :: rest

/-- The station at instant `t` after the head record was taken and ended at its start with this completion (R161, R165). -/
def State.endedAtStart (s : State) (t : Time) (rest : List QueuedCommand) (c : CommandRecord) (status : Status)
    (reason : Reason) (version : Version) : State :=
  { s with
    now := max s.now t
    host := { s.host with
      commandQueue := rest
      completionQueue := s.host.completionQueue ++
        [{ tag := c.tag, kind := c.kind, status := status, reason := reason, version := version, count := 0, position := 0,
           found := false, exhausted := false, disturbed := false, released := false }] } }

/-- The station at instant `t` after the head record was taken and one frame placed at the tail of the originated queue. -/
def State.executingWith (s : State) (t : Time) (rest : List QueuedCommand) (run : Running) (i : Item) : State :=
  { s with
    now := max s.now t
    unit := .executing run
    liu := { s.liu with originated := s.liu.originated ++ [{ item := i, marked := false }] }
    host := { s.host with commandQueue := rest } }

/-- The originated queue has a place free and nothing waits for one (R155). -/
def State.originatedFree (s : State) : Prop :=
  s.liu.originated.length < Config.transmitQueueLimit ∧ s.liu.originatedWaiting = []

/-- The reply queue has a place free and nothing waits for one (R155). -/
def State.replyFree (s : State) : Prop := s.liu.reply.length < Config.transmitQueueLimit ∧ s.liu.replyWaiting = []

/-- The frame of this station that is in flight is `f`, the head `i` of queue `q` (R148, R154). -/
def State.inFlight (s : State) (q : QueueId) (f : Frame) (i : Queued) (rest : List Queued) : Prop :=
  s.liu.transmitter = .sending q f ∧ s.liu.queue q = i :: rest

/-- A COPY within one region byte by byte in its direction, which the chunks are to equal (R184). -/
def copyByteByByte (c : CommandRecord) (m : Memory) : Memory :=
  (List.range c.length.toNat).foldl
    (fun m i =>
      let k := if c.descending then c.length.toNat - 1 - i else i
      writeByte m (c.offset.toNat + k) (readByte m (c.secondOffset.toNat + k))) m

/-- One chunk of a COPY within region `r`: read as it begins and written at its echo (R184, R185). -/
def copyChunk (c : CommandRecord) (r : Region) (done : Nat) (m : Memory) : Memory :=
  let len := chunkLength c (some r) r done
  let start := chunkStart c (some r) done len
  writeBytes m (c.offset.toNat + start) (readBytes m (c.secondOffset.toNat + start) len)

/-- The chunks of a COPY within region `r`, at most `n` of them, from `done` bytes on (R187). -/
def copyInChunks (c : CommandRecord) (r : Region) : Nat → Nat → Memory → Memory
  | 0, _, m => m
  | n + 1, done, m =>
    if c.length.toNat ≤ done then m
    else copyInChunks c r n (done + chunkLength c (some r) r done) (copyChunk c r done m)

/-- `n` groups of a SCAN in succession, with no event between them (R195). -/
def runGroups (t : Time) : Nat → State → State
  | 0, s => s
  | n + 1, s =>
    match exec (.scanGroup t) s with
    | .next s' => runGroups t n s'
    | .fault _ | .refused _ => s

/-- The commands that may write a replica's bytes or version: an UPDATE or part that arrives, the alone start, and reset. -/
def mayWriteImage : Instr → Bool
  | .powerOn _ | .nreset _ | .updateArrival _ _ _ | .refreshDataArrival _ _ _ | .snapArrival _ _ _
  | .listenTimerExpiry _ => true
  | _ => false

/-- The row that takes this record from the head of the command queue (R161, R165, R181). -/
def QueuedCommand.row (q : QueuedCommand) (t : Time) : Instr :=
  if q.cancelled then .cancelledRecord t
  else
    match kindOf q.record.kind with
    | some k => k.row t
    | none => .unknownKind t

/-- The commands that may empty the posting slot: a removal from the completion queue, and reset (R161, R163). -/
def emptiesPostingSlot : Instr → Bool
  | .powerOn _ | .nreset _ | .getCompletionCompletionPoint _ | .postingSlotMove _ => true
  | _ => false

/-- The commands that may take a region out of the change set (R205, R206). -/
def emptiesChangeSet : Instr → Bool
  | .powerOn _ | .nreset _ | .takeChangesCompletionPoint _ => true
  | _ => false

/-- The host's transactions that read. -/
def readsOnly : Instr → Bool
  | .status _ | .getCompletion _ | .readImage _ _ _ _ | .readRegion _ _ | .takeChanges _ | .readCounters _ _
  | .unassignedTransaction _ _ | .transactionEnd _ => true
  | _ => false

end Sys2Proof.Machine
end

