-- ==== Sys2Proof/Certificates/Slice0/Obligations.lean ====
section
/-! DEFINITION. The statements for the provers (OBLIGATIONS.json). `max s.now t` is the instant of a command at `t`: the clock
never runs backward (log 1). -/

section

open Sys2Proof Sys2Proof.Machine

/-! ## The machine as a whole -/

/-- A step executes the command at the front of the queue on the station with the queue's rest; on an empty queue it idles,
the model's choice (log 5). -/
def Obligations.StepRunsTheFrontCommand : Prop :=
  (∀ (c : Instr) (rest : List Instr) (s : State),
      step { s with pending := c :: rest } = exec c { s with pending := rest }) ∧
    ∀ s : State, s.pending = [] → step s = .next s

/-- Every command, in every state, goes on to a next state: it leaves the queue of waiting commands as it is and does not
turn the clock back (the model's choice, log 1). While power is below its range no command but POWER_ON has an effect (the
model's choice, log 6). -/
def Obligations.EveryCommandCompletesAndKeepsTheQueue : Prop :=
  ∀ (c : Instr) (s : State), ∃ s', exec c s = .next s' ∧ s'.pending = s.pending ∧ s.now ≤ s'.now ∧
    (s.powered = false → (∀ t, c ≠ .powerOn t) → s' = s)

/-- The bytes and the version of every replica are changed by no command but an UPDATE's or a part's arrival, the listen
expiry (the alone start) and a reset. An UPDATE's arrival, in every state, leaves every byte outside those that it carries
and selects as it was (R51, R55, R60, R86, R102; the frame of the image). -/
def Obligations.OnlyTheNamedCommandsWriteTheImage : Prop :=
  (∀ (c : Instr) (s s' : State), exec c s = .next s' → mayWriteImage c = false →
      ∀ r, (s'.replica r).content = (s.replica r).content ∧ (s'.replica r).version = (s.replica r).version) ∧
    ∀ (t : Time) (x : Station) (u : Update) (s s' : State), exec (.updateArrival t x u) s = .next s' →
      ∀ (r : Region) (a : Nat),
        r ≠ u.region ∨ a < u.offset.toNat ∨ u.offset.toNat + u.data.length ≤ a ∨
          maskSelects u.mask (a - u.offset.toNat) = false →
        readByte (s'.replica r).content a = readByte (s.replica r).content a

/-- Every command keeps every buffer of bytes in canonical form (R50, R76, R80). -/
def Obligations.EveryCommandKeepsTheImageSound : Prop :=
  ∀ (c : Instr) (s s' : State), s.imageSound → exec c s = .next s' → s'.imageSound

/-- Every command keeps every list within its bound: six budget entries, four jobs, eight frames in each transmit queue,
eight command records, sixteen completion records, and a repair list of at most 64 regions, each once and each STALE; a
region in an open refresh reception is STALE and not on it (R38, R72, R81, R88, R90, R154, R202, R203). -/
def Obligations.EveryCommandKeepsTheListsBounded : Prop :=
  ∀ (c : Instr) (s s' : State), s.listsBounded → exec c s = .next s' → s'.listsBounded

/-- Every command keeps every directory entry of the form that R1, R2 and R13 give it: no optional field in UNKNOWN, a last
owner in SETTLING, no overheard claim in CLAIMED, the owner's side exactly where this station is the holder; and every entry
UNKNOWN in UNCONFIGURED, LISTENING, DETACHED and ISOLATED. The premise on the timers and the station state is the invariant
of EveryCommandKeepsTheMembershipSound (R1, R2, R13). -/
def Obligations.EveryCommandKeepsTheDirectorySound : Prop :=
  ∀ (c : Instr) (s s' : State), s.directorySound → s.membershipSound → exec c s = .next s' → s'.directorySound

/-- Every command keeps the station state in step with the configuration record, the timers, the join record and the leave
cause (R96, R99, R100, R108, R111, R117, R121). -/
def Obligations.EveryCommandKeepsTheMembershipSound : Prop :=
  ∀ (c : Instr) (s s' : State), s.membershipSound → exec c s = .next s' → s'.membershipSound

/-- Every command keeps the change set a set of region numbers in ascending order, and no command but the completion point of
a TAKE-CHANGES and a reset takes a region out of it: station-state changes do not (R205, R206). -/
def Obligations.EveryCommandKeepsTheChangeSet : Prop :=
  ∀ (c : Instr) (s s' : State), exec c s = .next s' →
    (s.host.changeSet.Pairwise (· < ·) → s'.host.changeSet.Pairwise (· < ·)) ∧
      (emptiesChangeSet c = false → ∀ r, r ∈ s.host.changeSet → r ∈ s'.host.changeSet)

/-- The station right after reset is sound in all four ways. -/
def Obligations.ResetIsSound : Prop :=
  State.reset.imageSound ∧ State.reset.listsBounded ∧ State.reset.directorySound ∧ State.reset.membershipSound

/-! ## Power and reset -/

/-- What a reset leaves, at any instant, in every block (R2, R4, R40, R51, R72, R80, R90, R91, R96, R121, R144, R154, R161,
R198 to R210). POWER_ON and NRESET put every block into that state (R96) and keep the queue of waiting commands, the model's
own (log 5). A supply below its range turns the line driver off and ATTN high (00, Electrical note); that it touches nothing
else, so that every block stands as it was, is the model's choice (PRESUMED, log 6). The host's bytes of a transaction that
began before the reset name no row any more (R197; log 23). -/
def Obligations.AResetLeavesTheInitialState : Prop :=
  (∀ t : Time,
      let s := State.resetAt t
      s.station = .unconfigured ∧ s.host.config = none ∧ (∀ x, s.member x = MemberEntry.absent) ∧
        s.membership.presenceTimer = none ∧ s.membership.listenTimer = none ∧ s.membership.isolationTimer = none ∧
        s.membership.faultCause = .none ∧ s.membership.memberHeard = false ∧ s.membership.leaveCause = none ∧
        s.membership.join = none ∧
        (∀ r, s.entry r = Entry.unknown) ∧ s.claimCounter = 0 ∧ s.budget = [] ∧
        (∀ r, (s.replica r).condition = .unsynced ∧ (s.replica r).version = 0 ∧ (s.replica r).attempts = 0 ∧
          ∀ a, readByte (s.replica r).content a = 0) ∧
        s.transfer = Transfer.empty ∧ s.accessTimer = .idle ∧ s.liu.lastSender = none ∧ s.liu.fallback = true ∧
        s.liu.failures = 0 ∧ s.liu.reply = [] ∧ s.liu.originated = [] ∧ s.liu.replyWaiting = [] ∧
        s.liu.originatedWaiting = [] ∧ s.unit = .idle ∧ s.host.commandQueue = [] ∧ s.host.completionQueue = [] ∧
        s.host.changeSet = [] ∧ s.host.stateChanged = false ∧ s.host.counters = Counters.zero ∧ s.host.readBuffer = [] ∧
        s.host.transaction = .none ∧ s.attnAsserted = false ∧ s.linkByte = 0 ∧
        ∀ (fell u : Time) (bytes : List Byte), fell < t → s.hostRow fell u bytes = none) ∧
    ∀ (t : Time) (s : State),
      exec (.powerOn t) s = .next { State.resetAt (max s.now t) with pending := s.pending } ∧
        (s.powered = true → exec (.nreset t) s = .next { State.resetAt (max s.now t) with pending := s.pending }) ∧
        (s.powered = true → ∃ s', exec (.powerBelowOperatingRange t) s = .next s' ∧ s'.powered = false ∧
          s'.driverOn = false ∧ s'.attnAsserted = false ∧
          s' = { s with now := max s.now t, powered := false, liu := { s.liu with transmitter := .off } })

/-! ## The host's transactions -/

/-- A CONFIGURE is answered by the table of R99. A refused one changes nothing but its answer; on OK the record is written,
the station's own entry is ABSENT and the station listens for 25 ms; the directory, the replicas, the budget list, the
transfer unit, the command unit and every queue stay (R99, R100, R199). -/
def Obligations.ConfigureAnswersByTheTable : Prop :=
  ∀ (t : Time) (station lease limit mask : Byte) (s : State), s.powered = true →
    let refused (a : Answer) : State :=
      { s with now := max s.now t, host := { s.host with transaction := .nothingToComplete, answer := some a } }
    ∃ s', exec (.configure t station lease limit mask) s = .next s' ∧
      (s.station ≠ .unconfigured → s' = refused .locked) ∧
      (s.station = .unconfigured → 15 < station.toNat → s' = refused .badStation) ∧
      (s.station = .unconfigured → station.toNat ≤ 15 → 50 < lease.toNat → s' = refused .badLease) ∧
      (s.station = .unconfigured → station.toNat ≤ 15 → lease.toNat ≤ 50 →
        s'.host.answer = some .ok ∧
          (∃ c, s'.host.config = some c ∧ c.station.val = station.toNat ∧ c.leaseCode.val = lease.toNat ∧
            c.openWaitLimit = limit ∧ c.notifyChanges = mask.getLsbD 0 ∧ c.notifyState = mask.getLsbD 1 ∧
            s'.member c.station = MemberEntry.absent ∧ ∀ x, x ≠ c.station → s'.member x = s.member x) ∧
          s'.station = .listening ∧ s'.membership.listenTimer = some (max s.now t + 25000000) ∧
          s'.membership.memberHeard = false ∧ s'.host.stateChanged = true ∧
          s'.directory = s.directory ∧ s'.replicas = s.replicas ∧ s'.budget = s.budget ∧ s'.transfer = s.transfer ∧
          s'.unit = s.unit ∧ s'.liu.reply = s.liu.reply ∧ s'.liu.originated = s.liu.originated ∧
          s'.host.commandQueue = s.host.commandQueue ∧ s'.host.completionQueue = s.host.completionQueue ∧
          s'.host.changeSet = s.host.changeSet ∧ s'.host.counters = s.host.counters)

/-- A STATUS fills the read buffer with the ten bytes of 10.7, the member set by its bits; the state-changed flag stands
until the completion point, which clears it unless it was set again since the taking point: a listen expiry between the two
is reported by the next STATUS (R200). -/
def Obligations.StatusIsReadAndItsFlagCleared : Prop :=
  (∀ (t : Time) (s : State), s.powered = true →
      ∃ s' hi lo, exec (.status t) s = .next s' ∧
        s'.host.readBuffer =
          [s.station.code, s.membership.faultCause.code, hi, lo, BitVec.ofNat 8 s.host.commandQueue.length,
            BitVec.ofNat 8 s.host.completionQueue.length, BitVec.ofNat 8 s.heldCount, BitVec.ofNat 8 s.staleCount,
            BitVec.ofNat 8 s.lostCount, if s.host.stateChanged then 1 else 0] ∧
        (∀ x : Station, (word16 hi lo).getLsbD x.val = true ↔ (s.member x).presence = .member) ∧
        s'.host.stateChanged = s.host.stateChanged ∧ s'.host.transaction = .statusTaken false) ∧
    (∀ (t : Time) (again : Bool) (s : State), s.powered = true → s.host.transaction = .statusTaken again →
        exec (.statusCompletionPoint t) s = .next { s with
          now := max s.now t
          host := { s.host with transaction := .nothingToComplete, stateChanged := s.host.stateChanged && again } }) ∧
      ∀ (t₁ t₂ d : Time) (again : Bool) (s : State), s.powered = true → s.host.transaction = .statusTaken again →
        s.membership.listenTimer = some d → d ≤ max s.now t₁ →
        ∃ s₁ s₂, exec (.listenTimerExpiry t₁) s = .next s₁ ∧ exec (.statusCompletionPoint t₂) s₁ = .next s₂ ∧
          s₂.host.stateChanged = true

/-- The reading transactions, the transactions without effect and the end of a transaction change nothing but the read
buffer, the transaction in progress and its answer. SDO shifts 0 in a transaction without effect, and is not driven after
the end of one (R197, R198, R200, R203, R206 to R209). That the read buffer keeps its bytes at the end of a transaction is
the model's choice, where R198 is silent (log 22). -/
def Obligations.ReadingTransactionsChangeNothingElse : Prop :=
  ∀ (c : Instr) (s : State), s.powered = true → readsOnly c = true →
    ∃ s', exec c s = .next s' ∧
      s' = { s with
        now := s'.now
        host := { s.host with
          readBuffer := s'.host.readBuffer, transaction := s'.host.transaction, answer := s'.host.answer } } ∧
      (∀ t, c = .transactionEnd t →
        s'.host.transaction = .none ∧ s'.host.readBuffer = s.host.readBuffer ∧ ∀ i, s'.sdoByte i = none) ∧
      (∀ t code, c = .unassignedTransaction t code → ∀ i, s'.sdoByte i = some 0)

/-- A whole command record is placed at the tail of the command queue with its cancelled mark no and answered OK while fewer
than 8 stand there, and refused with FULL otherwise; bytes that are not yet a whole record, its data included, place
nothing. A GET-COMPLETION
returns the head record and removes it at its completion point, when a record in the posting slot moves to the tail; on an
empty queue it returns EMPTY and removes nothing (R163, R197, R202, R203; log 4). -/
def Obligations.TheHostQueuesAreFirstInFirstOut : Prop :=
  (∀ (t : Time) (bytes : List Byte) (s : State), s.powered = true →
      ∃ s', exec (.putCommand t bytes) s = .next s' ∧ s'.unit = s.unit ∧ s'.liu = s.liu ∧
        s'.host.completionQueue = s.host.completionQueue ∧
        (recordComplete bytes = true → s.host.commandQueue.length < 8 →
          s'.host.answer = some .ok ∧
            ∃ c : CommandRecord, s'.host.commandQueue = s.host.commandQueue ++ [{ record := c, cancelled := false }] ∧
              c.tag = bytes.getD 0 0 ∧ c.kind = bytes.getD 1 0 ∧ c.region = bytes.getD 2 0 ∧ c.offset = bytes.getD 3 0 ∧
              c.length = word16 (bytes.getD 4 0) (bytes.getD 5 0) ∧ c.flags = bytes.getD 6 0 ∧
              c.secondRegion = bytes.getD 7 0 ∧ c.secondOffset = bytes.getD 8 0 ∧ c.value = bytes.getD 9 0 ∧
              c.matchMask = bytes.getD 10 0 ∧
              c.mask = word16 (bytes.getD 11 0) (bytes.getD 12 0) ++ word16 (bytes.getD 13 0) (bytes.getD 14 0) ∧ c.data = bytes.drop 15) ∧
        (recordComplete bytes = true → 8 ≤ s.host.commandQueue.length →
          s'.host.answer = some .full ∧ s'.host.commandQueue = s.host.commandQueue) ∧
        (bytes.length <
            15 + recordDataLength (bytes.getD 1 0) (256 * (bytes.getD 4 0).toNat + (bytes.getD 5 0).toNat) →
          s'.host.answer = none ∧ s'.host.commandQueue = s.host.commandQueue)) ∧
    ∀ (t₁ t₂ : Time) (s : State), s.powered = true →
      ∃ s₁ s₂, exec (.getCompletion t₁) s = .next s₁ ∧ exec (.getCompletionCompletionPoint t₂) s₁ = .next s₂ ∧
        s₁.host.completionQueue = s.host.completionQueue ∧
        (s.host.completionQueue = [] →
          s₁.host.readBuffer = [2] ∧ s₂.host.completionQueue = [] ∧ s₂.unit = s.unit) ∧
        ∀ c rest, s.host.completionQueue = c :: rest →
          s₁.host.readBuffer = 0 :: c.bytes ∧ c.bytes.length = 11 ∧
            ((∀ p, s.unit ≠ .posting p) → s₂.host.completionQueue = rest ∧ s₂.unit = s.unit) ∧
            (∀ p, s.unit = .posting p → rest.length < 16 →
              s₂.host.completionQueue = rest ++ [p] ∧ s₂.unit = .idle)

/-- A READ-IMAGE in range gives the version, the condition code and the bytes of one instant; any other gives version 0,
condition code 255 and zeros. A READ-REGION gives the ten bytes of 10.7; a region over 63 gives state code 255 and zeros
(R207, R208). -/
def Obligations.ReadsGiveTheImageAndTheRegion : Prop :=
  (∀ (t : Time) (region offset : Byte) (length : BitVec 16) (s : State), s.powered = true →
      ∃ s', exec (.readImage t region offset length) s = .next s' ∧
        let out (i : Nat) : Byte := (s'.sdoByte i).getD 1
        (∀ r, regionOf region = some r → 1 ≤ length.toNat → length.toNat ≤ 256 →
          offset.toNat + length.toNat ≤ 256 →
          s'.host.readBuffer.length = 3 + length.toNat ∧
            word16 (out 0) (out 1) = (s.replica r).version ∧ out 2 = (s.replica r).condition.code ∧
            ∀ i, i < length.toNat → out (3 + i) = readByte (s.replica r).content (offset.toNat + i)) ∧
        (regionOf region = none ∨ length.toNat = 0 ∨ 256 < length.toNat ∨ 256 < offset.toNat + length.toNat →
          out 0 = 0 ∧ out 1 = 0 ∧ out 2 = 255 ∧ ∀ i, out (3 + i) = 0)) ∧
    ∀ (t : Time) (region : Byte) (s : State), s.powered = true →
      ∃ s', exec (.readRegion t region) s = .next s' ∧
        let out (i : Nat) : Byte := (s'.sdoByte i).getD 1
        (regionOf region = none → out 0 = 255 ∧ ∀ i, 0 < i → out i = 0) ∧
        ∀ r, regionOf region = some r →
          s'.host.readBuffer.length = 10 ∧ (s.entry r).state.bytes = [out 0, out 1, out 2] ∧
            (∀ x, (s.entry r).lastOwner = some x → out 3 = BitVec.ofNat 8 x.val) ∧
            ((s.entry r).lastOwner = none → out 3 = 255) ∧
            out 4 = (s.entry r).state.reasonByte ∧ (out 5).getLsbD 0 = (s.entry r).state.isLapsed ∧
            (out 5).getLsbD 1 = (s.entry r).overheard.isSome ∧ (out 5).getLsbD 2 = s.inReception r ∧
            (out 5).getLsbD 3 = s.transfer.repairList.contains r ∧ out 6 = (s.replica r).condition.code ∧
            word16 (out 7) (out 8) = (s.replica r).version ∧ out 9 = BitVec.ofNat 8 (s.replica r).attempts

/-- A TAKE-CHANGES gives the count of the change set and its regions, ascending; after its completion point the set holds
exactly the regions added since the taking point; cut short before that point it removes nothing (R206). The set is ascending
by EveryCommandKeepsTheChangeSet. -/
def Obligations.TakeChangesLosesNoChange : Prop :=
  ∀ (t₁ t₂ t₃ : Time) (added : List Region) (s : State), s.powered = true → s.host.changeSet.Pairwise (· < ·) →
    ∃ s₁ s₂ s₃ s₄, exec (.takeChanges t₁) s = .next s₁ ∧
      s₁.host.readBuffer =
        BitVec.ofNat 8 s.host.changeSet.length :: s.host.changeSet.map (fun r => BitVec.ofNat 8 r.val) ∧
      (s.host.changeSet.map (fun r => BitVec.ofNat 8 r.val)).Pairwise (· < ·) ∧ s.host.changeSet.length ≤ 64 ∧
      s₁.host.changeSet = s.host.changeSet ∧ s₁.host.transaction = .changesTaken s.host.changeSet [] ∧
      exec (.takeChangesCompletionPoint t₂) (s₁.addChanges added) = .next s₂ ∧
      (∀ r, r ∈ s₂.host.changeSet ↔ r ∈ added) ∧
      exec (.transactionEnd t₂) (s₁.addChanges added) = .next s₃ ∧
      exec (.takeChangesCompletionPoint t₃) s₃ = .next s₄ ∧
      ∀ r, r ∈ s₄.host.changeSet ↔ r ∈ s.host.changeSet ∨ r ∈ added

/-- ATTN is asserted exactly while the completion queue is not empty, or the change set is not empty with notify-changes yes,
or the state-changed flag is set with notify-state yes; after a reset it is high, and an accepted CONFIGURE that sets
notify-state asserts it. A record in the posting slot stands only at a full completion queue, which every command keeps so,
and keeps ATTN asserted when it moves in at a GET-COMPLETION (R210). -/
def Obligations.AttnFollowsItsThreeConditions : Prop :=
  (∀ s : State, s.powered = true →
      (s.attnAsserted = true ↔
        s.host.completionQueue ≠ [] ∨
          (s.host.changeSet ≠ [] ∧ ∃ k, s.host.config = some k ∧ k.notifyChanges = true) ∨
          (s.host.stateChanged = true ∧ ∃ k, s.host.config = some k ∧ k.notifyState = true))) ∧
    (∀ t : Time, (State.resetAt t).attnAsserted = false) ∧
    (∀ (t : Time) (station lease limit mask : Byte) (s : State), s.powered = true → s.station = .unconfigured →
      station.toNat ≤ 15 → lease.toNat ≤ 50 → mask.getLsbD 1 = true →
      ∃ s', exec (.configure t station lease limit mask) s = .next s' ∧ s'.attnAsserted = true) ∧
    (∀ (t : Time) (p : Completion) (s : State), s.powered = true → s.unit = .posting p →
      s.host.transaction = .completionTaken → s.host.completionQueue.length = 16 →
      ∃ s', exec (.getCompletionCompletionPoint t) s = .next s' ∧ s'.attnAsserted = true) ∧
    ∀ (c : Instr) (s s' : State), exec c s = .next s' →
      ((∀ p, s.unit = .posting p → s.host.completionQueue.length = 16) → s.host.completionQueue.length ≤ 16 →
        ∀ p, s'.unit = .posting p → s'.host.completionQueue.length = 16)

/-- A READ-COUNTERS copies the six counters into the read buffer. With a non-zero clear byte, whatever the counters are at
its completion point, each becomes its present value less the value copied, so that one raise since the copy leaves 1, or 0
for a counter that stayed saturated; with clear byte 0 they stay as they are (R209). -/
def Obligations.ReadCountersKeepsLaterRaises : Prop :=
  (∀ (t₁ t₂ : Time) (clear : Byte) (present : Counters) (s : State), s.powered = true →
      ∃ s₁ s₂, exec (.readCounters t₁ clear) s = .next s₁ ∧ s₁.host.readBuffer = s.host.counters.bytes ∧
        s₁.host.counters = s.host.counters ∧
        exec (.readCountersCompletionPoint t₂) (s₁.withHost fun h => { h with counters := present }) = .next s₂ ∧
        (clear = 0 → s₂.host.counters = present) ∧
        (clear ≠ 0 → s₂.host.counters =
          { frameErrors := present.frameErrors - s.host.counters.frameErrors
            txFailures := present.txFailures - s.host.counters.txFailures
            foreignUpdates := present.foreignUpdates - s.host.counters.foreignUpdates
            versionGaps := present.versionGaps - s.host.counters.versionGaps
            objectionsWithdrawn := present.objectionsWithdrawn - s.host.counters.objectionsWithdrawn
            transfersAbandoned := present.transfersAbandoned - s.host.counters.transfersAbandoned })) ∧
    ∀ v : BitVec 16, raiseCounter v - v = if v = 65535 then 0 else 1

/-- ABORT is answered OK. It reaches no command in an IDLE or POSTING unit; it ends a CLOSE, RENEW, WRITE, COPY or FILL whose
frame has not begun, and an OPEN whose CLAIM has not, ABORTED and withdraws the frame; on one whose frame is in flight, and
on an OPEN whose claim is pending, it stands. A WAITING OPEN ends ABORTED with its last reason, a SCAN with its position and
the bytes not yet examined. ABORT-ALL does the same and marks every queued record, in place, as cancelled (R179 to R181,
R193, R196, R202, R204). -/
def Obligations.AbortActsOnTheCommandInExecution : Prop :=
  ∀ (t : Time) (s : State), s.powered = true →
    ∃ s' s'', exec (.abort t) s = .next s' ∧ exec (.abortAll t) s = .next s'' ∧
      s'.host.answer = some .ok ∧ s''.host.answer = some .ok ∧ s''.unit = s'.unit ∧ s''.liu = s'.liu ∧
      s'.host.commandQueue = s.host.commandQueue ∧
      s''.host.commandQueue = s.host.commandQueue.map (fun q => { q with cancelled := true }) ∧
      s''.host.completionQueue = s'.host.completionQueue ∧ s'.directory = s.directory ∧ s'.replicas = s.replicas ∧
      ((∀ run, s.unit ≠ .executing run) →
        s'.unit = s.unit ∧ s'.liu = s.liu ∧ s'.host.completionQueue = s.host.completionQueue) ∧
      ∀ run, s.unit = .executing run →
        let ended (reason : Reason) (count : Nat) (position : Int) : Prop :=
          s'.unit = .idle ∧ ∃ c, s'.host.completionQueue = s.host.completionQueue ++ [c] ∧ c.tag = run.record.tag ∧
            c.status = .aborted ∧ c.reason = reason ∧ c.count = count ∧ c.position = position ∧
            c.version = (s.replica run.region).version
        let stands : Prop := s'.unit = .executing { run with abort := true } ∧ s'.liu = s.liu ∧
          s'.host.completionQueue = s.host.completionQueue
        (run.progress = .close ∨ run.progress = .renew ∨ run.progress = .write ∨
            (∃ source done offset sourceOffset length d,
              run.progress = .chunk source done offset sourceOffset length d) →
          (s.commandFlying run = true → stands) ∧
          (s.commandFlying run = false → s.host.completionQueue.length < 16 →
            ended .none run.progress.bytesDone 0 ∧ s'.liu.holds .originated run.owns = false)) ∧
        (∀ clock before, run.progress = .openClaimQueued clock before →
          (s.commandFlying run = true → stands) ∧
          (s.commandFlying run = false → s.host.completionQueue.length < 16 →
            ended before 0 0 ∧ s'.liu.holds .originated run.owns = false)) ∧
        (∀ clock, run.progress = .openClaimPending clock → stands) ∧
        (∀ clock last, run.progress = .openWaiting clock last → s.host.completionQueue.length < 16 →
          ended last 0 0 ∧ s'.liu = s.liu) ∧
        (∀ next n d, run.progress = .scan next n d → s.host.completionQueue.length < 16 →
          ended .none n next ∧ s'.liu = s.liu)

/-- ATTACH, DETACH and RESYNC are answered by the table of R110 and enter the states it names; a RESYNC with nothing held,
claimed or in flight goes on to JOINING in the same event; a DETACH in LEAVING makes the leave cause DETACH, RESYNC or not
before. None of them touches the fault cause or the command queue (R97, R110 to R114, R120, R201). -/
def Obligations.HostStateRequestsFollowTheTable : Prop :=
  ∀ (t : Time) (s : State), s.powered = true →
    ∃ a d r, exec (.attach t) s = .next a ∧ exec (.detach t) s = .next d ∧ exec (.resync t) s = .next r ∧
      a.membership.faultCause = s.membership.faultCause ∧ d.membership.faultCause = s.membership.faultCause ∧
      r.membership.faultCause = s.membership.faultCause ∧
      a.host.commandQueue = s.host.commandQueue ∧ d.host.commandQueue = s.host.commandQueue ∧
      r.host.commandQueue = s.host.commandQueue ∧
      (s.station = .detached → a.host.answer = some .ok ∧ a.station = .listening ∧
        a.membership.listenTimer = some (max s.now t + 25000000)) ∧
      (s.station ≠ .detached → a.host.answer = some .wrongState ∧ (s.notResyncing → a.station = s.station)) ∧
      (s.station = .unconfigured ∨ s.station = .detached →
        d.host.answer = some .wrongState ∧ d.station = s.station) ∧
      (s.station = .member ∨ s.station = .leaving → d.host.answer = some .ok ∧ d.station = .leaving ∧
        d.membership.leaveCause = some .detach ∧ d.directory = s.directory ∧ d.replicas = s.replicas) ∧
      (s.station = .listening ∨ s.station = .joining ∨ s.station = .isolated →
        d.host.answer = some .ok ∧ d.station = .detached ∧ (∀ x, d.member x = MemberEntry.absent) ∧
          (∀ q, (d.entry q) = Entry.unknown ∧ (d.replica q).condition = .unsynced ∧
            (d.replica q).content = (s.replica q).content) ∧ d.budget = []) ∧
      (s.station ≠ .member → r.host.answer = some .wrongState ∧ (s.notResyncing → r.station = s.station)) ∧
      (s.station = .member → 0 < s.heldCount + s.pendingCount → r.host.answer = some .ok ∧ r.station = .leaving ∧
        r.membership.leaveCause = some .resync ∧ r.directory = s.directory) ∧
      (s.station = .member → s.heldCount + s.pendingCount = 0 → s.liu.transmitter = .off →
        r.host.answer = some .ok ∧ r.station = .joining)

/-! ## The command unit -/

/-- A command that a check of R165 refuses, or whose holding R172 to R174, R182 and R183 miss, ends at its start; so does a
COPY or SCAN whose source is not CURRENT, STALE_SOURCE, and a COPY or FILL whose own replica is not, REPLICA_NOT_CURRENT; a
record of unknown kind ends INVALID there and a cancelled record ABORTED. Its completion record is placed, and nothing else
changes (R161, R162, R165, R181 to R183, R194). -/
def Obligations.CommandsThatEndAtTheirStart : Prop :=
  (∀ (k : CommandKind) (t : Time) (c : CommandRecord) (rest : List QueuedCommand) (s : State),
      s.readyFor c rest → kindOf c.kind = some k → s.host.completionQueue.length < 16 →
      (regionOf c.region = none → exec (k.row t) s = .next (s.endedAtStart t rest c .invalid .none 0)) ∧
        ∀ r, regionOf c.region = some r →
          (c.fieldsValid k = false →
            exec (k.row t) s = .next (s.endedAtStart t rest c .invalid .none (s.replica r).version)) ∧
          (c.fieldsValid k = true → k ≠ .repair → k ≠ .scan → s.station ≠ .member →
            exec (k.row t) s = .next (s.endedAtStart t rest c .notMember .none (s.replica r).version)) ∧
          (c.fieldsValid k = true → k ≠ .open → k ≠ .repair → k ≠ .scan → s.station = .member →
            s.heldUnlapsed r = false →
            exec (k.row t) s = .next (s.endedAtStart t rest c .notOwner .none (s.replica r).version)) ∧
          (c.fieldsValid k = true → k = .fill → s.station = .member → s.heldUnlapsed r = true →
            s.isCurrent r = false →
            exec (k.row t) s = .next (s.endedAtStart t rest c .replicaNotCurrent .none (s.replica r).version)) ∧
          (∀ source, c.fieldsValid k = true → k = .copy → s.station = .member → s.heldUnlapsed r = true →
            regionOf c.secondRegion = some source →
            (s.isCurrent source = false →
              exec (k.row t) s = .next (s.endedAtStart t rest c .staleSource .none (s.replica r).version)) ∧
            (s.isCurrent source = true → s.isCurrent r = false →
              exec (k.row t) s = .next (s.endedAtStart t rest c .replicaNotCurrent .none (s.replica r).version))) ∧
          (c.fieldsValid k = true → k = .scan → s.isCurrent r = false →
            exec (k.row t) s = .next (s.endedAtStart t rest c .staleSource .none (s.replica r).version))) ∧
    ∀ (t : Time) (c : CommandRecord) (rest : List QueuedCommand) (v : Version) (s : State),
      s.powered = true → s.unit = .idle → s.host.completionQueue.length < 16 →
      (regionOf c.region = none → v = 0) → (∀ r, regionOf c.region = some r → v = (s.replica r).version) →
      (s.host.commandQueue = { record := c, cancelled := false } :: rest → kindOf c.kind = none →
          exec (.unknownKind t) s = .next (s.endedAtStart t rest c .invalid .none v)) ∧
        (s.host.commandQueue = { record := c, cancelled := true } :: rest →
          exec (.cancelledRecord t) s = .next (s.endedAtStart t rest c .aborted .none v))

/-- An OPEN that passes its checks in MEMBER, on a FREE region with room in the budget list, raises the claim number and
places one CLAIM that carries it; with WAIT its deadline is its start plus the open wait limit, and a limit of 0 counts as
expired at once (DEDUCED, log 37). The directory, the budget list and the replicas do not change (R4, R9, R166). -/
def Obligations.OpenPlacesOneClaim : Prop :=
  ∀ (t : Time) (c : CommandRecord) (rest : List QueuedCommand) (r : Region) (k : Configuration) (s : State),
    s.readyFor c rest → kindOf c.kind = some .open → regionOf c.region = some r → s.station = .member →
    s.host.config = some k → (s.entry r).isFree = true → s.isCurrent r = true → (s.advance t).budgetRoom = true →
    s.originatedFree →
    ∃ clock, exec (.openRegion t) s = .next
        { s.executingWith t rest
            { record := c, region := r, abort := false, progress := .openClaimQueued clock .none }
            (.claim r (some (s.claimCounter + 1))) with
          claimCounter := s.claimCounter + 1 } ∧
      (c.wait = false → clock = .noWait) ∧
      (c.wait = true → 0 < k.openWaitLimit.toNat →
        clock = .till (max s.now t + 1000000 * k.openWaitLimit.toNat)) ∧
      (c.wait = true → k.openWaitLimit.toNat = 0 → clock = .expired)

/-- An OPEN for a region that this station holds unlapsed ends ALREADY; for a replica that is not CURRENT it ends
REPLICA_NOT_CURRENT; without WAIT it ends BUSY_REGION on a region that is not FREE and BUDGET_FULL on a full budget list;
with WAIT it waits with that reason, or, with an open wait limit of 0, ends WAIT_EXPIRED with it (DEDUCED, log 37). No CLAIM
is placed and no claim number used (R166, R171). -/
def Obligations.OpenWithoutAClaim : Prop :=
  ∀ (t : Time) (c : CommandRecord) (rest : List QueuedCommand) (r : Region) (k : Configuration) (s : State),
    s.readyFor c rest → kindOf c.kind = some .open → regionOf c.region = some r → s.station = .member →
    s.host.config = some k → s.host.completionQueue.length < 16 →
    let v := (s.replica r).version
    let waiting (why : Reason) : State :=
      { s with
        now := max s.now t
        unit := .executing
          { record := c, region := r, abort := false
            progress := .openWaiting (.till (max s.now t + 1000000 * k.openWaitLimit.toNat)) why }
        host := { s.host with commandQueue := rest } }
    (s.heldUnlapsed r = true → exec (.openRegion t) s = .next (s.endedAtStart t rest c .already .none v)) ∧
      (s.heldUnlapsed r = false → s.isCurrent r = false →
        exec (.openRegion t) s = .next (s.endedAtStart t rest c .replicaNotCurrent .none v)) ∧
      (s.heldUnlapsed r = false → s.isCurrent r = true → (s.entry r).isFree = false →
        (c.wait = false → exec (.openRegion t) s = .next (s.endedAtStart t rest c .busyRegion .notFree v)) ∧
        (c.wait = true → 0 < k.openWaitLimit.toNat → exec (.openRegion t) s = .next (waiting .notFree)) ∧
        (c.wait = true → k.openWaitLimit.toNat = 0 →
          exec (.openRegion t) s = .next (s.endedAtStart t rest c .waitExpired .notFree v))) ∧
      (s.isCurrent r = true → (s.entry r).isFree = true → (s.advance t).budgetRoom = false →
        (c.wait = false → exec (.openRegion t) s = .next (s.endedAtStart t rest c .budgetFull .listFull v)) ∧
        (c.wait = true → 0 < k.openWaitLimit.toNat → exec (.openRegion t) s = .next (waiting .listFull)) ∧
        (c.wait = true → k.openWaitLimit.toNat = 0 →
          exec (.openRegion t) s = .next (s.endedAtStart t rest c .waitExpired .listFull v)))

/-- In MEMBER, for a region held unlapsed, a CLOSE places one RELEASE, a RENEW one RENEW, and a WRITE on a CURRENT replica
one UPDATE with the record's data, mask and close-after flag; nothing else changes (R172 to R174). -/
def Obligations.HolderCommandsPlaceOneFrame : Prop :=
  ∀ (t : Time) (c : CommandRecord) (rest : List QueuedCommand) (r : Region) (s : State),
    s.readyFor c rest → regionOf c.region = some r → s.station = .member → s.heldUnlapsed r = true →
    s.originatedFree →
    (kindOf c.kind = some .close → exec (.closeRegion t) s = .next
        (s.executingWith t rest { record := c, region := r, abort := false, progress := .close } (.release r true))) ∧
      (kindOf c.kind = some .renew → exec (.renewRegion t) s = .next
        (s.executingWith t rest { record := c, region := r, abort := false, progress := .renew } (.renew r))) ∧
      (kindOf c.kind = some .write → c.writeFieldsValid = true →
        (s.isCurrent r = true → exec (.writeRegion t) s = .next
          (s.executingWith t rest { record := c, region := r, abort := false, progress := .write }
            (.update r c.offset.toNat (if c.masked then some c.mask else none) c.closeAfter (.bytes c.data)))) ∧
        (s.isCurrent r = false → s.host.completionQueue.length < 16 → exec (.writeRegion t) s = .next
          (s.endedAtStart t rest c .replicaNotCurrent .none (s.replica r).version)))

/-- A REPAIR returns a LOST replica to STALE with attempts 0 at the tail of the repair list and ends DONE; on a STALE or
CURRENT replica it ends DONE and on an UNSYNCED one NOT_MEMBER, with no effect (R94, R177). -/
def Obligations.RepairReturnsALostReplica : Prop :=
  ∀ (t : Time) (c : CommandRecord) (rest : List QueuedCommand) (r : Region) (s : State),
    s.readyFor c rest → kindOf c.kind = some .repair → regionOf c.region = some r →
    s.host.completionQueue.length < 16 →
    let v := (s.replica r).version
    ((s.replica r).condition = .stale ∨ (s.replica r).condition = .current →
        exec (.repairRegion t) s = .next (s.endedAtStart t rest c .done .none v)) ∧
      ((s.replica r).condition = .unsynced →
        exec (.repairRegion t) s = .next (s.endedAtStart t rest c .notMember .none v)) ∧
      ((s.replica r).condition = .lost → s.inReception r = false →
        ∃ s', exec (.repairRegion t) s = .next s' ∧
          s'.replica r = { s.replica r with condition := .stale, attempts := 0 } ∧
          (∀ q, q ≠ r → s'.replica q = s.replica q) ∧
          s'.transfer = { s.transfer with repairList := s.transfer.repairList ++ [r] } ∧
          r ∈ s'.host.changeSet ∧ s'.unit = .idle ∧ s'.directory = s.directory ∧ s'.liu = s.liu ∧
          s'.host.completionQueue = (s.endedAtStart t rest c .done .none v).host.completionQueue)

/-- The first chunk of a FILL and of a COPY that pass their checks: at most 32 bytes, for a COPY within overlapping ranges of
one region at most the distance of the offsets; a FILL carries its value, a COPY reads its source when the frame begins; the
close-after flag stands only on a chunk that is the whole (R182 to R186). -/
def Obligations.BlockCommandsPlaceTheirFirstChunk : Prop :=
  ∀ (t : Time) (c : CommandRecord) (rest : List QueuedCommand) (r : Region) (s : State),
    s.readyFor c rest → regionOf c.region = some r → s.station = .member → s.heldUnlapsed r = true →
    s.isCurrent r = true → s.originatedFree →
    (kindOf c.kind = some .fill → c.fillFieldsValid = true →
        let len := min 32 c.length.toNat
        exec (.fill t) s = .next (s.executingWith t rest
          { record := c, region := r, abort := false, progress := .chunk none 0 c.offset.toNat
              (c.secondOffset.toNat) len false }
          (.update r c.offset.toNat none (c.closeAfter && c.length.toNat ≤ 32) (.bytes (List.replicate len c.value))))) ∧
      ∀ source, kindOf c.kind = some .copy → c.copyFieldsValid = true → regionOf c.secondRegion = some source →
        s.isCurrent source = true →
        let d := max (c.offset.toNat - c.secondOffset.toNat) (c.secondOffset.toNat - c.offset.toNat)
        let whole := min 32 c.length.toNat
        let len := if source = r ∧ d < c.length.toNat ∧ 1 ≤ d then min whole d else whole
        let start := if c.descending then c.length.toNat - len else 0
        exec (.copy t) s = .next (s.executingWith t rest
          { record := c, region := r, abort := false
            progress := .chunk (some source) 0 (c.offset.toNat + start) (c.secondOffset.toNat + start) len false }
          (.update r (c.offset.toNat + start) none (c.closeAfter && len == c.length.toNat)
            (.replica source (c.secondOffset.toNat + start) len)))

/-- A COPY within one region, cut into chunks by R184, leaves every byte as a copy of one byte at a time in the same
direction would, whether or not its ranges overlap (R184). -/
def Obligations.ChunksCopyByteByByte : Prop :=
  ∀ (c : CommandRecord) (r : Region) (m : Memory), Memory.wf m = true → c.copyFieldsValid = true →
    ∀ a, readByte (copyInChunks c r 256 0 m) a = readByte (copyByteByByte c m) a

/-- A group of a SCAN examines the next eight bytes, or those that remain: it ends the command FOUND at the first match,
EXHAUSTED after the last byte, and otherwise moves its position on. A SCAN with no event between its groups ends DONE: FOUND
at the first matching byte in its direction, with the bytes not yet examined as its count, or EXHAUSTED one past the range
(R194, R195; the groups after the first are rows of their own, the model's choice, log 3). The bytes of a range are 256 at
most, which 32 groups examine. -/
def Obligations.ScanFindsTheFirstMatch : Prop :=
  (∀ (t : Time) (run : Running) (next : Int) (n : Nat) (d : Bool) (s : State), s.powered = true →
      s.unit = .executing run → run.progress = .scan next n d → s.host.completionQueue.length < 16 →
      let place (i : Nat) : Int := if run.record.descending then next - i else next + i
      let hit (i : Nat) : Prop := readByte (s.replica run.region).content (place i).toNat &&& run.record.matchMask =
        run.record.value &&& run.record.matchMask
      ∃ s', exec (.scanGroup t) s = .next s' ∧ s'.liu = s.liu ∧ s'.replicas = s.replicas ∧ s'.directory = s.directory ∧
        (∀ i, i < min 8 n → hit i → (∀ j, j < i → ¬ hit j) →
          s'.unit = .idle ∧ ∃ e, s'.host.completionQueue = s.host.completionQueue ++ [e] ∧ e.tag = run.record.tag ∧
            e.status = .done ∧ e.found = true ∧ e.position = place i ∧ e.count = n - (i + 1) ∧ e.disturbed = d) ∧
        ((∀ i, i < min 8 n → ¬ hit i) → n ≤ 8 →
          s'.unit = .idle ∧ ∃ e, s'.host.completionQueue = s.host.completionQueue ++ [e] ∧ e.tag = run.record.tag ∧
            e.status = .done ∧ e.exhausted = true ∧ e.position = place n ∧ e.count = 0 ∧ e.disturbed = d) ∧
        ((∀ i, i < min 8 n → ¬ hit i) → 8 < n →
          s'.unit = .executing { run with progress := .scan (place 8) (n - 8) d })) ∧
    ∀ (t : Time) (c : CommandRecord) (rest : List QueuedCommand) (r : Region) (s : State),
      s.readyFor c rest → kindOf c.kind = some .scan → regionOf c.region = some r → c.scanFieldsValid = true →
      s.isCurrent r = true → s.host.completionQueue.length < 16 →
      let n := c.length.toNat
      let place (i : Nat) : Int := if c.descending then (c.offset.toNat : Int) - i else (c.offset.toNat : Int) + i
      let hit (i : Nat) : Prop :=
        readByte (s.replica r).content (place i).toNat &&& c.matchMask = c.value &&& c.matchMask
      ∃ s' e, exec (.scan t) s = .next s' ∧ (runGroups t 32 s').unit = .idle ∧
        (runGroups t 32 s').host.completionQueue = s.host.completionQueue ++ [e] ∧ e.tag = c.tag ∧ e.status = .done ∧
        e.version = (s.replica r).version ∧ e.disturbed = false ∧
        (∀ i, i < n → hit i → (∀ j, j < i → ¬ hit j) →
          e.found = true ∧ e.exhausted = false ∧ e.position = place i ∧ e.count = n - (i + 1)) ∧
        ((∀ i, i < n → ¬ hit i) → e.found = false ∧ e.exhausted = true ∧ e.position = place n ∧ e.count = 0)

/-- While the unit is POSTING it takes no command, and its record stays unchanged through every command but a removal from
the completion queue and a reset. At a removal by GET-COMPLETION the record moves to the tail, the unit becomes IDLE, and the
next record that waits is taken; the row POSTING_SLOT_MOVE does the same while there is room (the model's choice, log 4)
(R161, R163). -/
def Obligations.ThePostingSlotIsKept : Prop :=
  ∀ (t : Time) (p : Completion) (s : State), s.powered = true → s.unit = .posting p →
    (∀ (c : Instr) (s' : State), exec c s = .next s' → emptiesPostingSlot c = false → s'.unit = .posting p) ∧
      (∀ q : QueuedCommand, exec (q.row t) s = .next { s with now := max s.now t }) ∧
      (s.host.completionQueue.length < 16 → exec (.postingSlotMove t) s = .next { s with
        now := max s.now t
        unit := .idle
        host := { s.host with completionQueue := s.host.completionQueue ++ [p] } }) ∧
      ∀ c rest, s.host.transaction = .completionTaken → s.host.completionQueue = c :: rest → rest.length < 16 →
        ∃ s', exec (.getCompletionCompletionPoint t) s = .next s' ∧ s'.host.completionQueue = rest ++ [p] ∧
          s'.unit = .idle ∧
          ∀ q waiting, s.host.commandQueue = q :: waiting →
            ∃ s'', exec (q.row t) s' = .next s'' ∧ s''.host.commandQueue = waiting

/-- The open wait deadline ends a WAITING OPEN WAIT_EXPIRED with its last reason, and lets a claim already asked for run to
its outcome; before its instant the row has no effect (the model's choice, log 2) (R171). -/
def Obligations.OpenWaitDeadlineEndsAWaitingOpen : Prop :=
  ∀ (t d : Time) (run : Running) (s : State), s.powered = true → s.unit = .executing run →
    (∀ last, run.progress = .openWaiting (.till d) last → d ≤ max s.now t → s.host.completionQueue.length < 16 →
        ∃ s' e, exec (.openWaitDeadlineExpiry t) s = .next s' ∧ s'.unit = .idle ∧
          s'.host.completionQueue = s.host.completionQueue ++ [e] ∧ e.tag = run.record.tag ∧ e.status = .waitExpired ∧
          e.reason = last ∧ e.version = (s.replica run.region).version ∧ s'.liu = s.liu ∧ s'.directory = s.directory) ∧
      (∀ before, run.progress = .openClaimQueued (.till d) before → d ≤ max s.now t →
        exec (.openWaitDeadlineExpiry t) s = .next { s with
          now := max s.now t, unit := .executing { run with progress := .openClaimQueued .expired before } }) ∧
      (run.progress = .openClaimPending (.till d) → d ≤ max s.now t →
        exec (.openWaitDeadlineExpiry t) s = .next { s with
          now := max s.now t, unit := .executing { run with progress := .openClaimPending .expired } }) ∧
      (∀ last, run.progress = .openWaiting (.till d) last → max s.now t < d →
        exec (.openWaitDeadlineExpiry t) s = .next { s with now := max s.now t })

/-! ## Arrivals: claims and holdings -/

/-- A CLAIM of another station for a FREE region makes it CLAIMED for 250 µs, with its last owner kept; the budget list
records it while six entries do not stand there, and otherwise a station that transmits queues a BUDGET objection. For a
CLAIMED, HELD or SETTLING region its state, deadlines and last owner stay: in MEMBER and LEAVING the claimant, the holder, or
the last owner of a settling region queues one state objection; at HELD and SETTLING a station that is neither notes the
CLAIM as an overheard claim unless one is present. An UNKNOWN entry stays as it is, and no state objection is queued. A CLAIM
of this station for the region that has not begun is withdrawn, and its OPEN is handed *contended* (R10 to R14, R16, R18,
R41, R42, R167). -/
def Obligations.ClaimsOfOtherStations : Prop :=
  (∀ (t : Time) (x : Station) (r : Region) (n : ClaimNumber) (s : State), s.powered = true → s.isSelf x = false →
      (s.entry r).state = .free → s.notResyncing →
      ∃ s', exec (.claimArrival t x r n) s = .next s' ∧
        s'.entry r =
          { state := .claimed { station := x, number := n } (max s.now t + 250000), lastOwner := (s.entry r).lastOwner,
            overheard := none } ∧
        r ∈ s'.host.changeSet ∧ (∀ q, q ≠ r → s'.entry q = s.entry q) ∧ s'.replicas = s.replicas ∧
        (s.station.listens = true → (s.advance t).budgetRoom = true →
          s'.budget = s.budget.filter (fun e => e.live (max s.now t)) ++
            [{ claim := { station := x, number := n }, arrival := max s.now t }]) ∧
        (s.station.transmits = true → (s.advance t).budgetRoom = false → s.transfer.jobs = [] → s.replyFree →
          s'.liu.reply = s.liu.reply ++
            [{ item := .object { station := x, number := n } r true (max s.now t), marked := false }])) ∧
    (∀ (t : Time) (x : Station) (r : Region) (n : ClaimNumber) (s : State), s.powered = true → s.isSelf x = false →
      s.notResyncing → (s.entry r).state = .unknown →
      ∃ s', exec (.claimArrival t x r n) s = .next s' ∧ s'.directory = s.directory ∧ s'.replicas = s.replicas ∧
        s'.host.changeSet = s.host.changeSet ∧
        (s.transfer.jobs = [] → (s.advance t).budgetRoom = true → s'.liu.reply = s.liu.reply)) ∧
    (∀ (t : Time) (x : Station) (r : Region) (n : ClaimNumber) (run : Running) (clock : WaitClock) (before : Reason)
      (s : State), s.powered = true → s.isSelf x = false → s.notResyncing → s.ownClaimWaits r = true →
      s.unit = .executing run → run.region = r → run.abort = false → run.progress = .openClaimQueued clock before →
      ∃ s', exec (.claimArrival t x r n) s = .next s' ∧ s'.liu.holds .originated (Item.isClaimFor r) = false ∧
        (clock = .noWait → s.host.completionQueue.length < 16 →
          s'.unit = .idle ∧ ∃ e, s'.host.completionQueue = s.host.completionQueue ++ [e] ∧ e.tag = run.record.tag ∧
            e.status = .contended ∧ e.reason = .contended) ∧
        (∀ d, clock = .till d → s'.unit = .executing { run with progress := .openWaiting clock .contended })) ∧
    ∀ (t : Time) (x : Station) (r : Region) (n : ClaimNumber) (s : State), s.powered = true → s.isSelf x = false →
      s.notResyncing → (s.entry r).state ≠ .unknown → (s.entry r).state ≠ .free →
      ∃ s', exec (.claimArrival t x r n) s = .next s' ∧ (s'.entry r).state = (s.entry r).state ∧
        (s'.entry r).lastOwner = (s.entry r).lastOwner ∧ (∀ q, q ≠ r → s'.entry q = s.entry q) ∧
        s'.replicas = s.replicas ∧ s'.host.changeSet = s.host.changeSet ∧
        (s.authority r = true → (s'.entry r).overheard = (s.entry r).overheard) ∧
        (s.authority r = true → s.station.participates = true → (s.advance t).budgetRoom = true →
          s.transfer.jobs = [] → s.replyFree →
          s'.liu.reply = s.liu.reply ++
            [{ item := .object { station := x, number := n } r false (max s.now t), marked := false }]) ∧
        (∀ c d, (s.entry r).state = .claimed c d → s'.entry r = s.entry r) ∧
        (s.authority r = false → (∀ c d, (s.entry r).state ≠ .claimed c d) → (s.entry r).overheard = none →
          (s'.entry r).overheard =
            some { claim := { station := x, number := n }, adoption := max s.now t + 250000 }) ∧
        (s.authority r = false → (s.entry r).overheard ≠ none → (s'.entry r).overheard = (s.entry r).overheard)

/-- At the echo of this station's CLAIM the frame leaves its queue and the failures in a row end. A FREE region becomes
CLAIMED by this station, without joining the change set, and the OPEN waits for the confirmation; otherwise the entry is
unchanged and an OPEN without WAIT ends CONTENDED (R7, R15, R108, R153, R167). -/
def Obligations.OwnClaimEchoDecidesTheOpen : Prop :=
  ∀ (t : Time) (x : Station) (r : Region) (n : ClaimNumber) (i : Queued) (rest : List Queued) (run : Running)
    (clock : WaitClock) (before : Reason) (s : State),
    s.powered = true → s.station = .member → s.isSelf x = true → s.inFlight .originated (.claim r n) i rest →
    s.unit = .executing run → run.region = r → run.abort = false → run.progress = .openClaimQueued clock before →
    ∃ s', exec (.claimArrival t x r n) s = .next s' ∧ s'.liu.transmitter = .off ∧ s'.liu.failures = 0 ∧
      s'.liu.lastSender = some x ∧ s'.liu.originated = rest.filter (fun q => !(q.item.isPresence || q.item.isRenewal)) ∧
      s'.membership.presenceTimer = some (max s.now t + 8000000) ∧ s'.host.changeSet = s.host.changeSet ∧
      s'.replicas = s.replicas ∧ (∀ q, q ≠ r → s'.entry q = s.entry q) ∧
      ((s.entry r).state = .free →
        (s'.entry r).state = .claimed { station := x, number := n } (max s.now t + 250000) ∧
          s'.unit = .executing { run with progress := .openClaimPending clock }) ∧
      ((s.entry r).state ≠ .free → s'.entry r = s.entry r ∧
        (clock = .noWait → s.host.completionQueue.length < 16 →
          s'.unit = .idle ∧ ∃ e, s'.host.completionQueue = s.host.completionQueue ++ [e] ∧ e.tag = run.record.tag ∧
            e.status = .contended ∧ e.reason = .contended))

/-- An OBJECT for the claim that an entry shows as pending gives it the state of its reason, R22 to R24, and its version is
checked for the reasons HELD and SETTLING. An OBJECT for any other claim changes no entry's state (R21 to R25, R66). Out of
step are fewer than 15 regions, so that no resync is requested. -/
def Obligations.ObjectSettlesThePendingClaim : Prop :=
  ∀ (t : Time) (x : Station) (c : Claim) (r : Region) (why : ObjectReason) (owner : Station) (v : Version) (s : State),
    s.powered = true → s.isSelf x = false → s.station ≠ .leaving → s.outOfStep < 15 →
    (why = .claimed → v.toNat ≤ 255) →
    ∃ s', exec (.objectArrival t x c r why owner v) s = .next s' ∧ (∀ q, q ≠ r → s'.entry q = s.entry q) ∧
      (∀ q, q ≠ r → s'.replica q = s.replica q) ∧ (s'.replica r).content = (s.replica r).content ∧
      ((s.entry r).state.view ≠ .claimed c →
        (s'.entry r).state = (s.entry r).state ∧ (s'.entry r).lastOwner = (s.entry r).lastOwner ∧
          s'.replicas = s.replicas) ∧
      ((s.entry r).state.view = .claimed c →
        (why = .held → (∃ side, (s'.entry r).state = .held owner (max s.now t + s.leaseTime) side) ∧
          (s'.entry r).lastOwner = (s.entry r).lastOwner ∧ r ∈ s'.host.changeSet) ∧
        (why = .settling → (s'.entry r).state = .settling .released (max s.now t + 300000) ∧
          (s'.entry r).lastOwner = some owner ∧ r ∈ s'.host.changeSet) ∧
        (why = .claimed → (s'.entry r).state =
          .claimed { station := owner, number := v.setWidth 8 } (max s.now t + 250000)) ∧
        (why = .budget → (s'.entry r).state = .free ∧ (s'.entry r).lastOwner = (s.entry r).lastOwner ∧
          r ∈ s'.host.changeSet) ∧
        (why = .held ∨ why = .settling → (s.replica r).condition = .current → (s.replica r).version ≠ v →
          (s'.replica r).condition = .stale) ∧
        ((why = .claimed ∨ why = .budget) ∨ (s.replica r).condition ≠ .current ∨ (s.replica r).version = v →
          s'.replicas = s.replicas))

/-- An UPDATE from the owner with the next version is applied to a CURRENT replica: the selected bytes and the version; the
lease restarts, or with close-after the region becomes SETTLING; no counter is raised (R28, R55, R60). -/
def Obligations.UpdateFromTheOwnerIsApplied : Prop :=
  ∀ (t : Time) (x : Station) (u : Update) (l : Time) (side : OwnerSide) (s : State), s.powered = true →
    s.isSelf x = false → s.notResyncing → u.goodForm = true → (s.entry u.region).state = .held x l side →
    (s.replica u.region).condition = .current → u.version = (s.replica u.region).version + 1 →
    Memory.wf (s.replica u.region).content = true →
    ∃ s', exec (.updateArrival t x u) s = .next s' ∧ (s'.replica u.region).version = u.version ∧
      (s'.replica u.region).condition = .current ∧
      (∀ a, readByte (s'.replica u.region).content a =
        if u.offset.toNat ≤ a ∧ a < u.offset.toNat + u.data.length ∧
            maskSelects u.mask (a - u.offset.toNat) = true
        then u.data.getD (a - u.offset.toNat) 0 else readByte (s.replica u.region).content a) ∧
      u.region ∈ s'.host.changeSet ∧ s'.host.counters = s.host.counters ∧
      (∀ q, q ≠ u.region → s'.replica q = s.replica q ∧ s'.entry q = s.entry q) ∧
      (u.closeAfter = false → (∃ side', (s'.entry u.region).state = .held x (max s.now t + s.leaseTime) side') ∧
        (s'.entry u.region).lastOwner = (s.entry u.region).lastOwner) ∧
      (u.closeAfter = true → (s'.entry u.region).state = .settling .closedByUpdate (max s.now t + 300000) ∧
        (s'.entry u.region).lastOwner = some x)

/-- An UPDATE that does not follow makes a CURRENT replica STALE and puts it at the tail of the repair list, its bytes and
version kept: from the owner it counts as a version gap, from another station as a foreign update; where that takes a MEMBER
to 16 regions out of step or more, it enters LEAVING for a resync, with fault cause RESYNC_THRESHOLD. The owner's UPDATE for
a region in reception is kept in the catch-up list, and a 17th abandons the reception; for another replica that is not
CURRENT it changes no byte, but one with close-after returns a LOST replica to STALE. At an UNKNOWN entry it does nothing
(R54, R61 to R65, R70, R85, R88, R94, R115). -/
def Obligations.UpdateOutOfStepMakesStale : Prop :=
  (∀ (t : Time) (x : Station) (u : Update) (s : State), s.powered = true → s.isSelf x = false →
    s.station ≠ .leaving → s.outOfStep < 15 → u.goodForm = true →
    ∃ s', exec (.updateArrival t x u) s = .next s' ∧
      ((s.entry u.region).state = .unknown →
        s'.replicas = s.replicas ∧ s'.directory = s.directory ∧ s'.host.counters = s.host.counters) ∧
      ((s.entry u.region).heldBy x = true → (s.replica u.region).condition = .current →
        s.inReception u.region = false → u.version ≠ (s.replica u.region).version + 1 →
        s'.replica u.region = { s.replica u.region with condition := .stale } ∧
          s'.transfer.repairList = s.transfer.repairList ++ [u.region] ∧ u.region ∈ s'.host.changeSet ∧
          s'.host.counters =
            { s.host.counters with versionGaps := raiseCounter s.host.counters.versionGaps }) ∧
      ((s.entry u.region).heldBy x = true → (s.replica u.region).condition ≠ .current →
        (∀ q, q ≠ u.region → s'.replica q = s.replica q) ∧
          (∀ rec, s.transfer.reception = some rec → rec.region = u.region → s'.replicas = s.replicas ∧
            (rec.catchUp.length < 16 →
              s'.transfer.reception = some { rec with catchUp := rec.catchUp ++ [{ sender := x, update := u }] } ∧
                s'.transfer.repairList = s.transfer.repairList ∧ s'.host.counters = s.host.counters) ∧
            (16 ≤ rec.catchUp.length →
              s'.transfer.reception = none ∧
                (rec.kind = .refresh → s'.transfer.repairList = s.transfer.repairList ++ [u.region]) ∧
                s'.host.counters =
                  { s.host.counters with transfersAbandoned := raiseCounter s.host.counters.transfersAbandoned })) ∧
          (s.inReception u.region = false → s'.host.counters = s.host.counters ∧
            s'.transfer.reception = s.transfer.reception ∧
            (u.closeAfter = false ∨ (s.replica u.region).condition ≠ .lost → s'.replicas = s.replicas) ∧
            (u.closeAfter = true → (s.replica u.region).condition = .lost →
              s'.replica u.region = { s.replica u.region with condition := .stale, attempts := 0 } ∧
                s'.transfer.repairList = s.transfer.repairList ++ [u.region]))) ∧
      ((s.entry u.region).state ≠ .unknown → (s.entry u.region).heldBy x = false →
        s'.directory = s.directory ∧
          s'.host.counters =
            { s.host.counters with foreignUpdates := raiseCounter s.host.counters.foreignUpdates } ∧
          ((s.replica u.region).condition = .current → s.inReception u.region = false →
            s'.replica u.region = { s.replica u.region with condition := .stale } ∧
              s'.transfer.repairList = s.transfer.repairList ++ [u.region]) ∧
          ((s.replica u.region).condition ≠ .current → s'.replicas = s.replicas))) ∧
    ∀ (t : Time) (x : Station) (u : Update) (s : State), s.powered = true → s.isSelf x = false →
      s.station = .member → 15 ≤ s.outOfStep → u.goodForm = true → (s.entry u.region).state ≠ .unknown →
      (s.replica u.region).condition = .current →
      (s.entry u.region).heldBy x = false ∨ u.version ≠ (s.replica u.region).version + 1 →
      ∃ s', exec (.updateArrival t x u) s = .next s' ∧ s'.membership.faultCause = .resyncThreshold ∧
        s'.host.stateChanged = true ∧
        (0 < s.heldCount + s.pendingCount →
          s'.station = .leaving ∧ s'.membership.leaveCause = some .resync ∧
            (s'.replica u.region).condition = .stale) ∧
        (s.heldCount + s.pendingCount = 0 → s.liu.transmitter = .off → s'.station = .joining)

/-- A RENEW from the owner restarts the lease and changes nothing else of the directory; from a station that is not the owner
it counts as a foreign update; at an UNKNOWN entry it does nothing. A RELEASE from the owner makes the region SETTLING with
reason RELEASED; a LOST replica returns to STALE with attempts 0; a CURRENT replica of another version becomes STALE, of the
same version it stays. A RELEASE from any other station changes nothing of the directory or the image (R27, R29, R66, R67,
R94). -/
def Obligations.RenewAndReleaseActOnTheHolding : Prop :=
  (∀ (t : Time) (x : Station) (r : Region) (s : State), s.powered = true → s.isSelf x = false → s.notResyncing →
      ∃ s', exec (.renewArrival t x r) s = .next s' ∧ s'.replicas = s.replicas ∧
        s'.host.changeSet = s.host.changeSet ∧ (∀ q, q ≠ r → s'.entry q = s.entry q) ∧
        (∀ l, (s.entry r).state = .held x l .notOwn →
          s'.entry r = { s.entry r with state := .held x (max s.now t + s.leaseTime) .notOwn } ∧
            s'.host.counters = s.host.counters) ∧
        ((s.entry r).heldBy x = false → s'.entry r = s.entry r) ∧
        ((s.entry r).heldBy x = false → (s.entry r).state ≠ .unknown →
          s'.host.counters = { s.host.counters with foreignUpdates := raiseCounter s.host.counters.foreignUpdates }) ∧
        ((s.entry r).state = .unknown → s'.host.counters = s.host.counters)) ∧
    ∀ (t : Time) (x : Station) (r : Region) (v : Version) (s : State), s.powered = true → s.isSelf x = false →
      s.station ≠ .leaving → s.outOfStep < 15 →
      ∃ s', exec (.releaseArrival t x r v) s = .next s' ∧ (∀ q, q ≠ r → s'.entry q = s.entry q) ∧
        ((s.entry r).heldBy x = false → s'.directory = s.directory ∧ s'.replicas = s.replicas ∧
          s'.host.counters = s.host.counters) ∧
        ((s.entry r).heldBy x = true →
          s'.entry r = { s.entry r with
            state := .settling .released (max s.now t + 300000), lastOwner := some x } ∧
          r ∈ s'.host.changeSet ∧
          ((s.replica r).condition = .lost → s'.replica r = { s.replica r with condition := .stale, attempts := 0 }) ∧
          ((s.replica r).condition = .current → (s.replica r).version ≠ v →
            s'.replica r = { s.replica r with condition := .stale } ∧
              s'.host.counters = { s.host.counters with versionGaps := raiseCounter s.host.counters.versionGaps }) ∧
          ((s.replica r).condition = .current → (s.replica r).version = v → s'.replicas = s.replicas))

/-- The echo of the command's own frame ends it: a WRITE DONE with the frame's version and the length, a RENEW DONE with the
lease restarted, a CLOSE DONE with the RELEASE's final version and RELEASED yes; a CLOSE at a CURRENT replica of that version
adds no region to the change set. The echo of a COPY's or FILL's chunk adds its bytes: with all done the command ends DONE
with the frame's version and the whole count, and otherwise its next chunk is placed, cut and begun as R184 says, with the
close-after flag on the last (R7, R27, R172, R173, R176, R184 to R187). -/
def Obligations.EchoesEndTheHolderCommands : Prop :=
  ∀ (t : Time) (x : Station) (r : Region) (i : Queued) (rest : List Queued) (run : Running) (l d : Time) (s : State),
    s.powered = true → s.station = .member → s.isSelf x = true → s.unit = .executing run → run.region = r →
    (s.entry r).state = .held x l (.running d) → s.outOfStep < 15 →
    (∀ u : Update, u.region = r → u.goodForm = true → run.progress = .write → s.inFlight .originated (.update u) i rest →
        s.host.completionQueue.length < 16 →
        (s.replica r).condition = .current → u.version = (s.replica r).version + 1 →
        ∃ s' e, exec (.updateArrival t x u) s = .next s' ∧ s'.unit = .idle ∧
          s'.host.completionQueue = s.host.completionQueue ++ [e] ∧ e.tag = run.record.tag ∧ e.status = .done ∧
          e.version = u.version ∧ e.count = run.record.length.toNat ∧ e.released = run.record.closeAfter ∧
          (s'.replica r).version = u.version) ∧
      (run.progress = .renew → s.inFlight .originated (.renew r) i rest → s.host.completionQueue.length < 16 →
        ∃ s' e, exec (.renewArrival t x r) s = .next s' ∧ s'.unit = .idle ∧
          s'.host.completionQueue = s.host.completionQueue ++ [e] ∧ e.tag = run.record.tag ∧ e.status = .done ∧
          (s'.entry r).state = .held x (max s.now t + s.leaseTime)
            (.running (max s.now t + s.leaseTime - 1000000))) ∧
      (∀ v, run.progress = .close → s.inFlight .originated (.release r v) i rest →
        s.host.completionQueue.length < 16 →
        ∃ s' e, exec (.releaseArrival t x r v) s = .next s' ∧ s'.unit = .idle ∧
          s'.host.completionQueue = s.host.completionQueue ++ [e] ∧ e.tag = run.record.tag ∧ e.status = .done ∧
          e.version = v ∧ e.released = true ∧
          (s'.entry r).state = .settling .released (max s.now t + 300000) ∧
          ((s.replica r).condition = .current → (s.replica r).version = v → s'.host.changeSet = s.host.changeSet)) ∧
      ∀ (u : Update) (source : Option Region) (done offset sourceOffset len : Nat) (disturbed : Bool),
        u.region = r → u.goodForm = true → run.progress = .chunk source done offset sourceOffset len disturbed →
        s.inFlight .originated (.update u) i rest → (s.replica r).condition = .current →
        u.version = (s.replica r).version + 1 →
        let c := run.record
        let did := done + len
        let left := c.length.toNat - did
        let apart := max (c.offset.toNat - c.secondOffset.toNat) (c.secondOffset.toNat - c.offset.toNat)
        let whole := min 32 left
        let n := if source = some r ∧ apart < c.length.toNat ∧ 1 ≤ apart then min whole apart else whole
        let start := if c.descending = true ∧ source ≠ none then left - n else did
        let data : UpdateSource := match source with
          | some from_ => .replica from_ (c.secondOffset.toNat + start) n
          | none => .bytes (List.replicate n c.value)
        let next : Progress :=
          .chunk source did (c.offset.toNat + start) (c.secondOffset.toNat + start) n disturbed
        ∃ s', exec (.updateArrival t x u) s = .next s' ∧ (s'.replica r).version = u.version ∧
          (c.length.toNat ≤ did → s.host.completionQueue.length < 16 →
            s'.unit = .idle ∧ ∃ e, s'.host.completionQueue = s.host.completionQueue ++ [e] ∧ e.tag = c.tag ∧
              e.status = .done ∧ e.version = u.version ∧ e.count = did ∧ e.released = c.closeAfter ∧
              e.disturbed = (source.isSome && disturbed)) ∧
          (did < c.length.toNat → u.closeAfter = false → run.abort = false → s.liu.originatedWaiting = [] →
            rest.length < 8 →
            s'.host.completionQueue = s.host.completionQueue ∧
              s'.unit = .executing { run with progress := next } ∧
              s'.liu.originated = rest.filter (fun q => !(q.item.isPresence || q.item.isRenewal)) ++
                [{ item := .update r (c.offset.toNat + start) none (c.closeAfter && n == left) data, marked := false }])

/-! ## Arrivals: membership -/

/-- The arrival of any good frame sets the last-sender record and clears the fallback flag, and the quiet gap runs from it; a
frame of bad form sets the flag and leaves the record, and counts as a frame error where no end of an own collision is
awaited (the model's choice of how to tell that frame, log 41). In a state that keeps the table, another station's frame gives
its entry the state of R104 with the last-heard time and an absence deadline 30 ms later; a LEAVE makes it ABSENT. No third
station's entry changes (R104, R107, R139, R142, R143). -/
def Obligations.EveryGoodArrivalIsHeard : Prop :=
  (∀ (c : Instr) (x : Station) (f : Frame) (s : State), c.arrivingFrame = some (x, f) → s.powered = true →
      ∃ s', exec c s = .next s' ∧ s'.liu.activityEnd = s'.now ∧
        (f.goodForm = true → s'.liu.lastSender = some x ∧ s'.liu.fallback = false) ∧
        (f.goodForm = false → s.liu.transmitter = .off → s'.liu.lastSender = s.liu.lastSender ∧
          s'.liu.fallback = true ∧
          (s.liu.collisionEnd = none → s'.host.counters.frameErrors = raiseCounter s.host.counters.frameErrors))) ∧
    ∀ (c : Instr) (x : Station) (f : Frame) (s : State), c.arrivingFrame = some (x, f) → f.goodForm = true →
      s.powered = true → s.station.listens = true → s.isSelf x = false →
      ∃ s', exec c s = .next s' ∧ (∀ y, y ≠ x → s.isSelf y = false → s'.member y = s.member y) ∧
        let heard (p : Presence) : MemberEntry :=
          { presence := p, lastHeard := some s'.now, absence := some (s'.now + 30000000) }
        s'.member x =
          match f with
          | .leave => MemberEntry.absent
          | .joinReq => heard .joining
          | .object _ _ .budget _ _ => if (s.member x).presence = .joining then heard .joining else heard .member
          | _ => heard .member

/-- Any good frame with this station's number, arriving while it sends nothing, takes it to DETACHED with fault cause
DUPLICATE_NUMBER: directory UNKNOWN, replicas UNSYNCED with their bytes and versions, table ABSENT, transfer unit, budget
list and both queues empty (R119, R120). -/
def Obligations.DuplicateNumberDetaches : Prop :=
  ∀ (c : Instr) (x : Station) (f : Frame) (s : State), c.arrivingFrame = some (x, f) → f.goodForm = true →
    s.powered = true → s.station.checksNumber = true → s.isSelf x = true → s.liu.transmitter = .off →
    ∃ s', exec c s = .next s' ∧ s'.station = .detached ∧ s'.membership.faultCause = .duplicateNumber ∧
      (∀ y, s'.member y = MemberEntry.absent) ∧ (∀ r, s'.entry r = Entry.unknown) ∧
      (∀ r, (s'.replica r).condition = .unsynced ∧ (s'.replica r).content = (s.replica r).content ∧
        (s'.replica r).version = (s.replica r).version) ∧
      s'.transfer = Transfer.empty ∧ s'.budget = [] ∧ s'.liu.reply = [] ∧ s'.liu.originated = [] ∧
      s'.liu.replyWaiting = [] ∧ s'.liu.originatedWaiting = [] ∧ s'.host.config = s.host.config ∧
      s'.host.stateChanged = true

/-- A PRESENCE of another station with held count 0 ends, as EXPIRED, every holding of that station whose lease began before
the frame did, 7 µs before its arrival; with any other count it ends none (R109). -/
def Obligations.PresenceEndsContradictedHoldings : Prop :=
  ∀ (t : Time) (x : Station) (st : PresenceState) (held : Byte) (s : State), s.powered = true →
    s.isSelf x = false → s.station.transmits = true → s.notResyncing → held.toNat ≤ 64 →
    ∃ s', exec (.presenceArrival t x st held) s = .next s' ∧ s'.replicas = s.replicas ∧
      (held ≠ 0 → s'.directory = s.directory) ∧
      (held = 0 → ∀ r,
        (∀ l side, (s.entry r).state = .held x l side → l + 7000 < max s.now t + s.leaseTime →
          s'.entry r = { s.entry r with
            state := .settling .expired (max s.now t + 300000), lastOwner := some x } ∧
          r ∈ s'.host.changeSet) ∧
        ((∀ l side, (s.entry r).state = .held x l side → max s.now t + s.leaseTime ≤ l + 7000) →
          s'.entry r = s.entry r))

/-- A LEAVE of another station settles its holdings with reason OWNER_LEFT and frees its claims; its jobs are dropped. The
echo of this station's LEAVE takes it to DETACHED with the fault cause kept (R36, R79, R107, R113). -/
def Obligations.LeaveEndsItsSendersHoldings : Prop :=
  (∀ (t : Time) (x : Station) (s : State), s.powered = true → s.isSelf x = false → s.station.listens = true →
      s.notResyncing → (s.station = .joining → s.isResponder x = false) →
      ∃ s', exec (.leaveArrival t x) s = .next s' ∧ s'.member x = MemberEntry.absent ∧ s'.replicas = s.replicas ∧
        (∀ job, job ∈ s'.transfer.jobs → job.isFor x = false) ∧
        ∀ r,
          ((s.entry r).heldBy x = true →
            (s'.entry r).state = .settling .ownerLeft (max s.now t + 300000) ∧ (s'.entry r).lastOwner = some x ∧
              r ∈ s'.host.changeSet) ∧
          (∀ n d, (s.entry r).state = .claimed { station := x, number := n } d →
            (s'.entry r).state = .free ∧ (s'.entry r).lastOwner = (s.entry r).lastOwner ∧ r ∈ s'.host.changeSet) ∧
          ((s.entry r).heldBy x = false → (∀ n d, (s.entry r).state ≠ .claimed { station := x, number := n } d) →
            (s'.entry r).state = (s.entry r).state ∧ (s'.entry r).lastOwner = (s.entry r).lastOwner)) ∧
    ∀ (t : Time) (x : Station) (i : Queued) (rest : List Queued) (s : State), s.powered = true → s.isSelf x = true →
      s.station = .leaving → s.inFlight .originated .leave i rest →
      ∃ s', exec (.leaveArrival t x) s = .next s' ∧ s'.station = .detached ∧
        s'.membership.faultCause = s.membership.faultCause ∧ (∀ r, s'.entry r = Entry.unknown) ∧
        s'.liu.originated = []

/-! ## Arrivals: transfers and joining -/

/-- A REFRESH-REQ makes the station that names itself answerer, with a CURRENT replica and an empty job list, place part 0;
one that does not name itself adds no job. The echo of this station's own request starts the refresh timer (R73 to R75, R91).
-/
def Obligations.RefreshRequestsAreAnswered : Prop :=
  (∀ (t : Time) (q : Station) (r : Region) (s : State), s.powered = true → s.isSelf q = false → s.notResyncing →
      s.transfer.jobs = [] →
      ∃ s', exec (.refreshReqArrival t q r) s = .next s' ∧ s'.replicas = s.replicas ∧ s'.directory = s.directory ∧
        (s.station.participates = true → (s.answerer r q).any s.isSelf = true →
          (s.replica r).condition = .current → s.replyFree →
          s'.transfer.jobs = [.refresh r q (.at 0)] ∧
            s'.liu.reply = s.liu.reply ++ [{ item := .partZero .refresh q r, marked := false }]) ∧
        (s.station.participates = false ∨ (s.answerer r q).any s.isSelf = false ∨
          (s.replica r).condition ≠ .current → s'.transfer.jobs = [] ∧ s'.liu.reply = s.liu.reply)) ∧
    ∀ (t : Time) (x : Station) (r : Region) (i : Queued) (rest : List Queued) (s : State), s.powered = true →
      s.isSelf x = true → s.notResyncing → s.inFlight .originated (.refreshReq r) i rest →
      s.transfer.repairStage = .requestQueued →
      ∃ s', exec (.refreshReqArrival t x r) s = .next s' ∧ s'.transfer.repairStage = .awaitingPart0 ∧
        s'.transfer.refreshTimer = some (max s.now t + 2000000) ∧ s'.transfer.repairList = s.transfer.repairList

/-- Part 0 opens a reception: a REFRESH-DATA for this station and the head region of its repair list, while a request is out,
and a SNAP from the responder for an installed and UNSYNCED region of a joiner (R81, R82). -/
def Obligations.PartZeroOpensAReception : Prop :=
  ∀ (t : Time) (x : Station) (p : PartField) (s : State), s.powered = true → s.isSelf x = false → p.goodForm = true →
    p.part = 0 → s.isSelf p.peer = true → s.transfer.reception = none → s.transfer.jobs = [] →
    let opened (kind : TransferKind) : Reception :=
      { region := p.region, source := x, kind := kind, version := p.version, next := 1,
        buffer := writeBytes [] 0 p.data, catchUp := [], deadline := max s.now t + 2000000 }
    (s.station = .member → s.transfer.repairList.head? = some p.region → s.transfer.repairStage ≠ .idle →
        ∃ s', exec (.refreshDataArrival t x p) s = .next s' ∧ s'.transfer.reception = some (opened .refresh) ∧
          s'.transfer.repairList = s.transfer.repairList.filter (fun q => q != p.region) ∧
          s'.transfer.repairStage = .idle ∧ s'.transfer.refreshTimer = none ∧ s'.replicas = s.replicas) ∧
      (s.station = .joining → s.isResponder x = true → (s.entry p.region).state ≠ .unknown →
        (s.replica p.region).condition = .unsynced →
        ∃ s', exec (.snapArrival t x p) s = .next s' ∧ s'.transfer.reception = some (opened .snap) ∧
          s'.transfer.repairList = s.transfer.repairList ∧ s'.replicas = s.replicas)

/-- A part of the open reception from its source: the next one is kept and restarts the part deadline; part 7 installs the
buffer as the replica's content with version V, CURRENT, attempts 0; one out of order, or of another version, abandons the
reception. After the installation the catch-up entries that are not after V are skipped and those that follow one another
from V + 1 are applied; the first entry that is after V and does not follow makes the replica STALE, a version gap. A SNAP
part from a station that is not the responder is ignored (R83, R84, R86 to R88, R130, R136). -/
def Obligations.PartsFillTheReception : Prop :=
  (∀ (t : Time) (x : Station) (p : PartField) (rec : Reception) (s : State), s.powered = true → s.isSelf x = false →
    p.goodForm = true → s.isSelf p.peer = true → s.transfer.reception = some rec → rec.region = p.region →
    rec.source = x → s.transfer.jobs = [] → s.station ≠ .leaving → s.outOfStep < 15 →
    (rec.kind = .snap → s.station = .joining ∧ s.isResponder x = true) →
    let c : Instr := match rec.kind with
      | .refresh => .refreshDataArrival t x p
      | .snap => .snapArrival t x p
    let buffer := writeBytes rec.buffer (32 * p.part.val) p.data
    let installed : Replica := { condition := .current, version := rec.version, content := buffer, attempts := 0 }
    ∃ s', exec c s = .next s' ∧ (∀ q, q ≠ p.region → s'.replica q = s.replica q) ∧ s'.directory = s.directory ∧
      (p.part.val = rec.next → p.version = rec.version → p.part ≠ 7 →
        s'.transfer.reception = some { rec with buffer := buffer, next := rec.next + 1,
                                                deadline := max s.now t + 2000000 } ∧
          s'.replicas = s.replicas) ∧
      (p.part.val = rec.next → p.version = rec.version → p.part = 7 →
        s'.transfer.reception = none ∧ p.region ∈ s'.host.changeSet ∧
          ∀ before follow after : List CatchUp, rec.catchUp = before ++ follow ++ after → rec.catchUp.length ≤ 16 →
            (∀ e, e ∈ before → versionAfter e.update.version rec.version = false) →
            (∀ i e, follow[i]? = some e → e.update.version = rec.version + BitVec.ofNat 16 (i + 1)) →
            let caughtUp := follow.foldl (fun rep e => rep.applied e.update) installed
            (after = [] → s'.replica p.region = caughtUp ∧ s'.host.counters = s.host.counters) ∧
              ∀ e more, after = e :: more → versionAfter e.update.version rec.version = true →
                e.update.version ≠ rec.version + BitVec.ofNat 16 (follow.length + 1) →
                s'.replica p.region = { caughtUp with condition := .stale } ∧
                  s'.host.counters =
                    { s.host.counters with versionGaps := raiseCounter s.host.counters.versionGaps }) ∧
      (p.part.val ≠ rec.next ∨ p.version ≠ rec.version →
        s'.transfer.reception = none ∧ s'.replicas = s.replicas ∧
          s'.host.counters =
            { s.host.counters with transfersAbandoned := raiseCounter s.host.counters.transfersAbandoned } ∧
          (rec.kind = .refresh → s'.transfer.repairList = s.transfer.repairList ++ [p.region]))) ∧
    ∀ (t : Time) (x : Station) (p : PartField) (s : State), s.powered = true → s.isSelf x = false →
      p.goodForm = true → s.station = .joining → s.isResponder x = false → s.transfer.jobs = [] →
      ∃ s', exec (.snapArrival t x p) s = .next s' ∧ s'.transfer = s.transfer ∧ s'.replicas = s.replicas ∧
        s'.host = s.host

/-- The echo of part p of a served refresh job places part p + 1 from the transfer buffer; at part 7 the job ends. The echo
of a SNAP part places the next one, and that of part 7 the part 0 of the next region, or SYNC-END after region 63, unless a
refresh job waits behind the sync job, which is then served first. The echo of a DIR frame places the next one, and that of
frame 7 the part 0 of region 0; the echo of SYNC-END ends the job. The echo of a frame whose job was dropped while it was in
flight places nothing (R77 to R79, R127 to R129). -/
def Obligations.EchoesPlaceTheNextPart : Prop :=
  ∀ (t : Time) (x : Station) (f : PartField) (i : Queued) (rest : List Queued) (s : State),
    s.powered = true → s.isSelf x = true → s.notResyncing → f.goodForm = true → i.orphan = false →
    s.liu.replyWaiting = [] → s.liu.reply = i :: rest → rest.length < 8 →
    let placed (s' : State) (item : Item) : Prop := s'.liu.reply = rest ++ [{ item := item, marked := false }]
    let next (k : TransferKind) (b : TransferBuffer) : Item :=
      .part k { f with version := b.version, part := f.part + 1,
                       data := readBytes b.content (32 * (f.part + 1).val) 32 }
    (s.liu.transmitter = .sending .reply (.refreshData f) → s.transfer.jobs = [.refresh f.region f.peer (.at f.part)] →
        ∃ s', exec (.refreshDataArrival t x f) s = .next s' ∧
          (∀ b, s.transfer.buffer = some b → f.part ≠ 7 → placed s' (next .refresh b) ∧
            s'.transfer.jobs = [.refresh f.region f.peer (.at (f.part + 1))]) ∧
          (f.part = 7 → s'.transfer.jobs = [] ∧ s'.liu.reply = rest)) ∧
      (s.liu.transmitter = .sending .reply (.snap f) →
        ∃ s', exec (.snapArrival t x f) s = .next s' ∧
          (∀ b, s.transfer.buffer = some b → s.transfer.jobs = [.sync f.peer (.snapshot f.region f.part)] → f.part ≠ 7 →
            placed s' (next .snap b) ∧ s'.transfer.jobs = [.sync f.peer (.snapshot f.region (f.part + 1))]) ∧
          (∀ after : Region, s.transfer.jobs = [.sync f.peer (.snapshot f.region 7)] → f.part = 7 →
            after.val = f.region.val + 1 →
            placed s' (.partZero .snap f.peer after) ∧ s'.transfer.jobs = [.sync f.peer (.snapshot after 0)]) ∧
          (s.transfer.jobs = [.sync f.peer (.snapshot f.region 7)] → f.part = 7 → f.region = 63 →
            placed s' (.syncEnd f.peer) ∧ s'.transfer.jobs = [.sync f.peer .ending]) ∧
          (∀ r q more, s.transfer.jobs = .sync f.peer (.snapshot f.region 7) :: .refresh r q .waiting :: more →
            f.part = 7 → f.region.val < 63 → (∀ job, job ∈ more → job.isRefresh r q = false) →
            (∀ job, job ∈ more → job.isSync f.peer = false) →
            placed s' (.partZero .refresh q r) ∧
              s'.transfer.jobs = .sync f.peer (.paused (f.region.val + 1)) :: .refresh r q (.at 0) :: more)) ∧
      (∀ (j : Station) (g : Group) (es : List DirField), (Frame.dir j g es).goodForm = true →
        s.liu.transmitter = .sending .reply (.dir j g es) → s.transfer.jobs = [.sync j (.dir g)] →
        ∃ s', exec (.dirArrival t x j g es) s = .next s' ∧
          (g ≠ 7 → placed s' (.dir j (g + 1)) ∧ s'.transfer.jobs = [.sync j (.dir (g + 1))]) ∧
          (g = 7 → placed s' (.partZero .snap j 0) ∧ s'.transfer.jobs = [.sync j (.snapshot 0 0)])) ∧
      (∀ j : Station, s.liu.transmitter = .sending .reply (.syncEnd j) → s.transfer.jobs = [.sync j .ending] →
        ∃ s', exec (.syncEndArrival t x j) s = .next s' ∧ s'.transfer.jobs = [] ∧ s'.liu.reply = rest) ∧
      ∀ dropped : State, dropped = { s with liu := { s.liu with reply := { i with orphan := true } :: rest } } →
        (dropped.liu.transmitter = .sending .reply (.refreshData f) →
          ∃ s', exec (.refreshDataArrival t x f) dropped = .next s' ∧ s'.transfer = s.transfer ∧ s'.liu.reply = rest) ∧
        (dropped.liu.transmitter = .sending .reply (.snap f) →
          ∃ s', exec (.snapArrival t x f) dropped = .next s' ∧ s'.transfer = s.transfer ∧ s'.liu.reply = rest) ∧
        (∀ j g es, (Frame.dir j g es).goodForm = true → dropped.liu.transmitter = .sending .reply (.dir j g es) →
          ∃ s', exec (.dirArrival t x j g es) dropped = .next s' ∧ s'.transfer = s.transfer ∧ s'.liu.reply = rest) ∧
        ∀ j, dropped.liu.transmitter = .sending .reply (.syncEnd j) →
          ∃ s', exec (.syncEndArrival t x j) dropped = .next s' ∧ s'.transfer = s.transfer ∧ s'.liu.reply = rest

/-- A JOIN-REQ: the lowest-numbered member, with an empty job list, begins a sync job with DIR frame 0; a joiner whose
responder asks to join restarts with the next attempt, without a responder; the echo of an attempt sets the gap deadline to 5
ms and the renewal deadline to 8 ms. While the joiner has no responder, the arrival of a DIR, SNAP or SYNC-END for any joiner,
from any station and at this station's own echo, sets the gap deadline to 5 ms (R122 to R126, R128). -/
def Obligations.JoinRequestsStartOrRestartAJoin : Prop :=
  (∀ (t : Time) (j : Station) (s : State), s.powered = true → s.isSelf j = false → s.notResyncing →
      s.station.participates = true → s.transfer.jobs = [] → s.replyFree →
      ∃ s', exec (.joinReqArrival t j) s = .next s' ∧ s'.directory = s.directory ∧ s'.replicas = s.replicas ∧
        ((s.lowestMember j).any s.isSelf = true → s'.transfer.jobs = [.sync j (.dir 0)] ∧
          s'.liu.reply = s.liu.reply ++ [{ item := .dir j 0, marked := false }]) ∧
        ((s.lowestMember j).any s.isSelf = false → s'.transfer.jobs = [] ∧ s'.liu.reply = s.liu.reply)) ∧
    (∀ (t : Time) (x : Station) (rec : JoinRecord) (s : State), s.powered = true → s.isSelf x = false →
      s.station = .joining → s.membership.join = some rec → rec.responder = some x → rec.attempt < 4 →
      s.originatedFree → s.liu.transmitter = .off →
      ∃ s', exec (.joinReqArrival t x) s = .next s' ∧ s'.station = .joining ∧
        s'.membership.join = some { rec with attempt := rec.attempt + 1, responder := none, gap := none } ∧
        s'.liu.originated = s.liu.originated.filter (fun q => !q.item.isRenewal) ++
          [{ item := .joinReq false, marked := false }] ∧
        s'.directory = s.directory ∧ s'.replicas = s.replicas) ∧
    (∀ (t : Time) (x : Station) (m : Bool) (rest : List Queued) (rec : JoinRecord) (s : State), s.powered = true →
      s.isSelf x = true → s.station = .joining → s.membership.join = some rec →
      s.inFlight .originated .joinReq { item := .joinReq false, marked := m } rest →
      ∃ s', exec (.joinReqArrival t x) s = .next s' ∧
        s'.membership.join = some { rec with
          gap := some (max s.now t + 5000000), renewal := some (max s.now t + 8000000) }) ∧
    ∀ (c : Instr) (x : Station) (f : Frame) (q : QueueId) (i : Queued) (rest : List Queued) (rec : JoinRecord) (s : State),
      c.arrivingFrame = some (x, f) → f.goodForm = true →
      (∃ j g es, f = .dir j g es) ∨ (∃ p, f = .snap p) ∨ (∃ j, f = .syncEnd j) → s.powered = true →
      s.station = .joining → s.membership.join = some rec → rec.responder = none →
      s.isSelf x = false ∨ s.inFlight q f i rest →
      ∃ s' rec', exec c s = .next s' ∧ s'.membership.join = some rec' ∧ rec'.gap = some (s'.now + 5000000)

/-- A DIR for this joiner is installed over the eight entries of its group, by the table of R131, when it is group 0 or comes
from the responder; group 0 makes its sender the responder and begins a new run. No other entry changes (R3, R130, R131). -/
def Obligations.DirIsInstalledByTheJoiner : Prop :=
  ∀ (t : Time) (x j : Station) (g : Group) (es : List DirField) (rec : JoinRecord) (s : State), s.powered = true →
    s.isSelf x = false → s.isSelf j = true → s.station = .joining → s.membership.join = some rec →
    (Frame.dir j g es).goodForm = true → g = 0 ∨ rec.responder = some x →
    ∃ s', exec (.dirArrival t x j g es) s = .next s' ∧
      (∀ q : Region, q.val / 8 ≠ g.val → s'.entry q = s.entry q) ∧
      (∀ (q : Region) (e : DirField), q.val / 8 = g.val → es[q.val % 8]? = some e →
        s'.entry q =
          match e.shown with
          | .free => { state := .free, lastOwner := e.lastOwner, overheard := none }
          | .claimed c =>
            if s.isSelf c.station then
              { state := .settling .ownerAbsent (max s.now t + 300000), lastOwner := some c.station, overheard := none }
            else { state := .claimed c (max s.now t + 250000), lastOwner := e.lastOwner, overheard := none }
          | .held y =>
            if s.isSelf y then
              { state := .settling .ownerAbsent (max s.now t + 300000), lastOwner := some y, overheard := none }
            else { state := .held y (max s.now t + s.leaseTime) .notOwn, lastOwner := e.lastOwner, overheard := none }
          | .settling =>
            { state := .settling .released (max s.now t + 300000), lastOwner := e.lastOwner, overheard := none }) ∧
      (∀ q : Region, (s'.replica q).content = (s.replica q).content) ∧
      ∃ rec', s'.membership.join = some rec' ∧ rec'.responder = some x ∧ g ∈ rec'.runSet ∧
        (g = 0 → rec'.runSet = [0]) ∧
        (rec.responder = some x → rec'.gap = some (max s.now t + 5000000))

/-- A SYNC-END from the responder: with all eight groups the station enters MEMBER and each UNSYNCED replica becomes STALE,
at the tail of the repair list in ascending order; with a group missing the join restarts with no gap deadline (the model's
choice of the order, log 59), and after the fourth attempt the station listens with fault cause JOIN_FAILED (R116, R125,
R135). -/
def Obligations.SyncEndEndsTheJoin : Prop :=
  ∀ (t : Time) (x j : Station) (rec : JoinRecord) (s : State), s.powered = true → s.isSelf x = false →
    s.isSelf j = true → s.station = .joining → s.membership.join = some rec → rec.responder = some x →
    s.transfer.reception = none →
    ∃ s', exec (.syncEndArrival t x j) s = .next s' ∧
      (∀ r, (s'.replica r).content = (s.replica r).content ∧ (s'.replica r).version = (s.replica r).version) ∧
      ((∀ g, g ∈ rec.runSet) →
        s'.station = .member ∧ s'.membership.join = none ∧ s'.directory = s.directory ∧
          s'.membership.presenceTimer = some (max s.now t + 8000000) ∧ (s'.member j).presence = .member ∧
          s'.transfer.repairList = s.transfer.repairList ++
            allRegions.filter (fun r => (s.replica r).condition == .unsynced) ∧
          ∀ r, (s'.replica r).condition =
            if (s.replica r).condition = .unsynced then .stale else (s.replica r).condition) ∧
      (¬ (∀ g, g ∈ rec.runSet) → rec.attempt < 4 →
        s'.station = .joining ∧ s'.directory = s.directory ∧ s'.replicas = s.replicas ∧
          s'.membership.join = some { rec with attempt := rec.attempt + 1, gap := none }) ∧
      (¬ (∀ g, g ∈ rec.runSet) → rec.attempt = 4 →
        s'.station = .listening ∧ s'.membership.faultCause = .joinFailed ∧ s'.membership.join = none ∧
          (∀ r, s'.entry r = Entry.unknown) ∧ s'.membership.listenTimer = some (max s.now t + 25000000))

/-! ## The line -/

/-- The end of a faulty frame while this station sends nothing sets the fallback flag, leaves the last-sender record and
counts a frame error, but not for the collided frame that this station transmitted in, which ends with the activity of its
jam (the model's choice of how to tell it, log 41); activity on the line moves the end from which the quiet gap runs to the
instant that the command names, never back (the model's choice, log 29); the end of the jam turns the driver off and sets the
flag once the jam's time is over, and neither before it (the model's choice, log 2); none of them touches the reply queue. When a place is free in a queue, its oldest waiting placing request takes it,
behind the frames that stand there; a full queue places none (R143, R145 to R147, R150, R154, R155, R160). -/
def Obligations.LineActivityAndFreedPlaces : Prop :=
  (∀ (t e : Time) (s : State), s.powered = true → s.notResyncing →
      (s.liu.transmitter = .off →
          ∃ s', exec (.faultyFrameEnd t) s = .next s' ∧ s'.liu.fallback = true ∧ s'.liu.lastSender = s.liu.lastSender ∧
            s'.liu.activityEnd = max s.now t ∧ s'.liu.reply = s.liu.reply ∧
            ((∀ e, s.liu.collisionEnd = some e → e < max s.now t) → s'.host.counters =
              { s.host.counters with frameErrors := raiseCounter s.host.counters.frameErrors }) ∧
            (∀ e, s.liu.collisionEnd = some e → max s.now t ≤ e → s'.host.counters = s.host.counters) ∧
            s'.directory = s.directory ∧ s'.replicas = s.replicas) ∧
        exec (.lineActivityDeferral t e) s = .next { s with
          now := max s.now t
          liu := { s.liu with
            activityEnd := max s.liu.activityEnd (max (max s.now t) e)
            collisionEnd := s.liu.collisionEnd.map fun c =>
              if max s.now t ≤ c then max c (max (max s.now t) e) else c } } ∧
        (∀ ends, s.liu.transmitter = .jamming ends →
          ∃ s', exec (.jamEnd t) s = .next s' ∧
            (max s.now t < ends → s'.liu.transmitter = .jamming ends ∧ s'.liu.fallback = s.liu.fallback ∧
              s'.liu.activityEnd = s.liu.activityEnd ∧ s'.liu.collisionEnd = s.liu.collisionEnd) ∧
            (ends ≤ max s.now t → s'.liu.transmitter = .off ∧ s'.liu.fallback = true ∧
              s'.liu.activityEnd = max s.liu.activityEnd ends ∧ s'.liu.collisionEnd = some s'.liu.activityEnd) ∧
            s'.liu.reply = s.liu.reply ∧ s'.directory = s.directory ∧ s'.replicas = s.replicas ∧
            s'.host.counters = s.host.counters)) ∧
    ∀ (t : Time) (q : QueueId) (i : Item) (rest : List Item) (s : State), s.powered = true → s.liu.waiting q = i :: rest →
      (8 ≤ (s.liu.queue q).length → exec (.waitingPlacingRequest t q) s = .next { s with now := max s.now t }) ∧
        ((s.liu.queue q).length < 8 →
          ∃ s', exec (.waitingPlacingRequest t q) s = .next s' ∧ s'.liu.waiting q = rest ∧
            ((∀ r, i ≠ .claim r none) →
              s'.liu.queue q = s.liu.queue q ++ [{ item := i, marked := false }] ∧ s'.claimCounter = s.claimCounter) ∧
            (∀ r, i = .claim r none →
              s'.liu.queue q = s.liu.queue q ++ [{ item := .claim r (some (s.claimCounter + 1)), marked := false }] ∧
                s'.claimCounter = s.claimCounter + 1))

/-- At its access instant a waiting station begins the head of the reply queue, or else of the originated queue: the kinds
named here filled as R149 says; before that instant it begins nothing. Whatever the queues hold, it begins a frame only in
JOINING, MEMBER and LEAVING, a CLAIM only with fewer than six entries in its budget list, and an UPDATE only for a CURRENT
replica and with its next version (R46, R56, R144, R145, R148, R149). -/
def Obligations.AccessBeginsTheChosenFrame : Prop :=
  (∀ (t : Time) (own : Station) (q : QueueId) (i : Item) (m : Bool) (rest : List Queued) (s : State), s.powered = true →
      s.self = some own → s.station.transmits = true → s.notResyncing → s.liu.transmitter = .off →
      s.liu.replyWaiting = [] → s.liu.originatedWaiting = [] → s.liu.queue q = { item := i, marked := m } :: rest →
      (q = .originated → s.liu.reply = []) →
      ∃ s', exec (.accessInstant t) s = .next s' ∧
        (max s.now t < s.accessAt own → s'.liu.transmitter = .off) ∧
        (s.accessAt own ≤ max s.now t →
          (∀ r, i = .renew r → s'.liu.transmitter = .sending q (.renew r)) ∧
          (∀ r b, i = .release r b → s'.liu.transmitter = .sending q (.release r (s.replica r).version)) ∧
          (∀ r n, i = .claim r (some n) → (s.advance t).budgetRoom = true →
            s'.liu.transmitter = .sending q (.claim r n)) ∧
          (∀ r off mask close data, i = .update r off mask close (.bytes data) → (s.replica r).condition = .current →
            s'.liu.transmitter = .sending q (.update
              { region := r, version := (s.replica r).version + 1, offset := BitVec.ofNat 8 off, mask := mask,
                closeAfter := close, data := data })) ∧
          (∀ r off close src o n, i = .update r off none close (.replica src o n) →
            (s.replica r).condition = .current → (s.replica src).condition = .current →
            s'.liu.transmitter = .sending q (.update
              { region := r, version := (s.replica r).version + 1, offset := BitVec.ofNat 8 off, mask := none,
                closeAfter := close, data := readBytes (s.replica src).content o n })) ∧
          (i = .presence → s'.liu.transmitter = .sending q
            (.presence (if s.station = .leaving then .leaving else .member) (BitVec.ofNat 8 s.heldCount))) ∧
          (∀ c r a, i = .object c r true a → s'.liu.transmitter = .sending q (.object c r .budget own 0)) ∧
          (∀ c r a l side, i = .object c r false a → (s.entry r).state = .held own l side →
            s'.liu.transmitter = .sending q (.object c r .held own (s.replica r).version)) ∧
          (∀ k peer r, i = .partZero k peer r → (s.replica r).condition = .current →
            s'.transfer.buffer = some { region := r, version := (s.replica r).version, content := (s.replica r).content }))) ∧
    ∀ (t : Time) (q : QueueId) (f : Frame) (s s' : State), s.powered = true → s.liu.transmitter = .off →
      exec (.accessInstant t) s = .next s' → s'.liu.transmitter = .sending q f →
      s.station.transmits = true ∧
        (∀ r n, f = .claim r n → (s.advance t).budgetRoom = true) ∧
        (∀ u, f = .update u → (s.replica u.region).condition = .current ∧
          u.version = (s.replica u.region).version + 1)

/-- Of two stations that send different frames together, at least one reads a mismatch back. The first mismatch is the
collision, at the end of that half-bit (the model's choice, log 61). A collision turns the frame in flight into a jam of 2 µs of
state A and counts a transmit failure. Below the eighth in a row, outside
LEAVING, an unmarked frame other than an OBJECT stays at the head of its queue for its retry and a marked one is withdrawn;
the eighth isolates a station that transmits for 50 ms with its directory UNKNOWN and its queues empty (R117, R150 to R152,
R157). -/
def Obligations.CollisionCountsAndIsolates : Prop :=
  (∀ (x y : Station) (f g : Frame) (line : List Level), f.goodForm = true → g.goodForm = true → (x, f) ≠ (y, g) →
      (transmission x f).length ≤ line.length → (transmission y g).length ≤ line.length →
      firstMismatch (transmission x f) line ≠ none ∨ firstMismatch (transmission y g) line ≠ none) ∧
    (∀ (q : QueueId) (f : Frame) (own : Station) (began : Time) (heard : List Level) (n : Nat) (sent read : Level)
        (s : State), s.liu.transmitter = .sending q f → s.self = some own →
      heard.take n = (transmission own f).take n → (transmission own f)[n]? = some sent → heard[n]? = some read →
      sent ≠ read → s.readBack began heard = some (.collision (began + (n + 1) * 125 / 2))) ∧
  ∀ (t : Time) (q : QueueId) (f : Frame) (i : Queued) (rest : List Queued) (s : State), s.powered = true →
    s.inFlight q f i rest → s.notResyncing → (∀ run, s.unit ≠ .executing run) →
    ∃ s', exec (.collision t) s = .next s' ∧ s'.liu.transmitter = .jamming (max s.now t + 2000) ∧
      s'.drives = List.replicate 32 .a ∧
      s'.host.counters.txFailures = raiseCounter s.host.counters.txFailures ∧
      (s.liu.failures < 7 →
        s'.liu.failures = s.liu.failures + 1 ∧ s'.station = s.station ∧ s'.directory = s.directory ∧
          (i.marked = true → s.station ≠ .leaving → s'.liu.queue q = rest) ∧
          (i.marked = false → (∀ c r b a, i.item ≠ .object c r b a) → s.station ≠ .leaving →
            s'.liu.queue q = i :: rest)) ∧
      (7 ≤ s.liu.failures → s.station.transmits = true →
        s'.station = .isolated ∧ s'.membership.faultCause = .transmitFailures ∧ s'.liu.failures = 0 ∧
          s'.membership.isolationTimer = some (max s.now t + 50000000) ∧ s'.liu.reply = [] ∧
          s'.liu.originated = [] ∧ (∀ r, s'.entry r = Entry.unknown) ∧ (∀ x, s'.member x = MemberEntry.absent))

/-! ## Deadlines -/

/-- The confirmation expiry makes a CLAIMED region HELD by its claimant for one lease: another station's joins the change
set; for this station's own the owner-side deadline lies 1 ms before the lease's end, and its OPEN ends DONE. The lease
expiry makes a holding SETTLING with reason EXPIRED for 300 µs, the adoption deadline makes the overheard claimant the
holder, and a lease or adoption deadline that has not come changes nothing of the directory (the model's choice, log 2) (R5,
R16, R17, R26, R30, R168). -/
def Obligations.DirectoryDeadlines : Prop :=
  (∀ (t d : Time) (r : Region) (c : Claim) (s : State), s.powered = true → s.station ≠ .leaving →
      (s.entry r).state = .claimed c d → d ≤ max s.now t →
      ∃ s', exec (.confirmationExpiry t r) s = .next s' ∧ (s'.entry r).lastOwner = (s.entry r).lastOwner ∧
        (∀ q, q ≠ r → s'.entry q = s.entry q) ∧ s'.replicas = s.replicas ∧
        (s.isSelf c.station = false →
          (s'.entry r).state = .held c.station (max s.now t + s.leaseTime) .notOwn ∧ r ∈ s'.host.changeSet) ∧
        (s.isSelf c.station = true →
          (s'.entry r).state = .held c.station (max s.now t + s.leaseTime)
            (.running (max s.now t + s.leaseTime - 1000000)) ∧
          s'.host.changeSet = s.host.changeSet ∧
          ∀ run clock, s.unit = .executing run → run.region = r → run.progress = .openClaimPending clock →
            run.abort = false → s.host.completionQueue.length < 16 →
            s'.unit = .idle ∧ ∃ e, s'.host.completionQueue = s.host.completionQueue ++ [e] ∧ e.status = .done ∧
              e.tag = run.record.tag ∧ e.version = (s.replica r).version)) ∧
    ∀ (t : Time) (r : Region) (s : State), s.powered = true → s.station ≠ .leaving →
      ∃ a b, exec (.leaseExpiry t r) s = .next a ∧ exec (.overheardClaimExpiry t r) s = .next b ∧
        (∀ q, q ≠ r → a.entry q = s.entry q ∧ b.entry q = s.entry q) ∧ a.replicas = s.replicas ∧
        b.replicas = s.replicas ∧
        (∀ x l side, (s.entry r).state = .held x l side → l ≤ max s.now t →
          a.entry r = { s.entry r with
            state := .settling .expired (max s.now t + 300000), lastOwner := some x } ∧ r ∈ a.host.changeSet) ∧
        (∀ x l side, (s.entry r).state = .held x l side → max s.now t < l → a.directory = s.directory) ∧
        (∀ o, (s.entry r).overheard = some o → o.adoption ≤ max s.now t →
          (∃ side, (b.entry r).state = .held o.claim.station (max s.now t + s.leaseTime) side) ∧
            (b.entry r).lastOwner = (s.entry r).lastOwner ∧ (b.entry r).overheard = none) ∧
        (∀ o, (s.entry r).overheard = some o → max s.now t < o.adoption → b.directory = s.directory)

/-- When the settle deadline of an entry expires, the entry becomes FREE: its settle reason is gone, its last owner and its
overheard claim are kept, and the region is in the change set. An OBJECT never touches a SETTLING entry's state. A CLAIM
taken after the expiry finds the entry FREE (R10); taken before it, it finds SETTLING (R13), and the entry then becomes FREE
with any overheard claim kept (R33). Premise: the station is not in LEAVING for a resync, whose end can clear the directory
in the same event (R114). -/
def Obligations.SettleExpiryFreesTheRegion : Prop :=
  ∀ (t d : Time) (why : SettleReason) (r : Region) (s : State), s.powered = true → s.notResyncing →
    (s.entry r).state = .settling why d → d ≤ max s.now t →
    (∃ s', exec (.settleExpiry t r) s = .next s' ∧
        s'.entry r = { state := .free, lastOwner := (s.entry r).lastOwner, overheard := (s.entry r).overheard } ∧
        r ∈ s'.host.changeSet ∧ (∀ q, q ≠ r → s'.entry q = s.entry q) ∧ s'.replicas = s.replicas ∧
        ∀ (x : Station) (n : ClaimNumber), s.isSelf x = false →
          ∃ s'', exec (.claimArrival t x r n) s' = .next s'' ∧
            (s''.entry r).state = .claimed { station := x, number := n } (max s.now t + 250000)) ∧
      (∀ (x : Station) (c : Claim) (why' : ObjectReason) (owner : Station) (v : Version),
        (why' = .claimed → v.toNat ≤ 255) → s.isSelf x = false →
        ∃ s', exec (.objectArrival t x c r why' owner v) s = .next s' ∧ (s'.entry r).state = (s.entry r).state) ∧
      ∀ (x : Station) (n : ClaimNumber), s.isSelf x = false →
        ∃ s₁ s₂, exec (.claimArrival t x r n) s = .next s₁ ∧ (s₁.entry r).state = (s.entry r).state ∧
          exec (.settleExpiry t r) s₁ = .next s₂ ∧ (s₂.entry r).state = .free ∧
          (s₂.entry r).overheard = (s₁.entry r).overheard

/-- The owner-side expiry lapses the holding, which stays HELD to its lease deadline: no UPDATE or RENEW for the region that
has not begun is left, a RELEASE for it stands in the originated queue, and a WRITE whose frame had not begun ends LEASE_LOST
(R31, R175). -/
def Obligations.OwnerSideExpiryLapsesTheHolding : Prop :=
  ∀ (t d l : Time) (x : Station) (r : Region) (s : State), s.powered = true → s.station = .member →
    (s.entry r).state = .held x l (.running d) → d ≤ max s.now t → s.liu.transmitter = .off → s.originatedFree →
    ∃ s', exec (.ownerSideExpiry t r) s = .next s' ∧
      s'.entry r = { s.entry r with state := .held x l .lapsed } ∧ (∀ q, q ≠ r → s'.entry q = s.entry q) ∧
      s'.replicas = s.replicas ∧ s'.host.changeSet = s.host.changeSet ∧
      s'.liu.holds .originated (Item.isWriteFor r) = false ∧ s'.liu.holds .originated (Item.isReleaseFor r) = true ∧
      ∀ run, s.unit = .executing run → run.region = r → run.progress = .write →
        s.host.completionQueue.length < 16 →
        s'.unit = .idle ∧ ∃ e, s'.host.completionQueue = s.host.completionQueue ++ [e] ∧ e.status = .leaseLost ∧
          e.tag = run.record.tag ∧ e.count = 0

/-- The head of the budget list leaves it at 1,000 µs of age and not before; no OBJECT that has not begun is left 150 µs
after its CLAIM's arrival, and each that goes is counted; one expiry withdraws every due one (DEDUCED, log 26) (R39, R158,
R159). -/
def Obligations.BudgetAndObjectionDeadlines : Prop :=
  ∀ (t : Time) (s : State), s.powered = true → s.notResyncing →
    (∀ e rest, s.budget = e :: rest → e.arrival + 1000000 ≤ max s.now t →
        ∃ s', exec (.budgetEntryRemoval t) s = .next s' ∧ s'.budget = rest ∧ s'.directory = s.directory ∧
          s'.replicas = s.replicas) ∧
      (∀ e rest, s.budget = e :: rest → max s.now t < e.arrival + 1000000 →
        ∃ s', exec (.budgetEntryRemoval t) s = .next s' ∧ s'.budget = s.budget) ∧
      (s.liu.transmitter = .off →
        ∃ s', exec (.objectionDeadlineExpiry t) s = .next s' ∧
          s'.liu.reply = s.liu.reply.filter (fun q => !q.item.objectionDue (max s.now t)) ∧
          (s.host.counters.objectionsWithdrawn.toNat + 8 < 65535 → s.liu.reply.length ≤ 8 →
            s'.host.counters.objectionsWithdrawn.toNat = s.host.counters.objectionsWithdrawn.toNat +
              s.liu.reply.countP (fun q => q.item.objectionDue (max s.now t))) ∧
          s'.directory = s.directory ∧ s'.replicas = s.replicas)

/-- The part deadline abandons the reception. The refresh timer raises the attempts of the head region of the repair list: a
new request at the first and second expiry, LOST at the third. With the stage IDLE and the record closed, a MEMBER requests
the head region's repair (R84, R88, R91, R92). -/
def Obligations.RepairDeadlines : Prop :=
  ∀ (t d : Time) (r : Region) (s : State), s.powered = true → s.station = .member →
    (∀ rec, s.transfer.reception = some rec → rec.deadline ≤ max s.now t →
        ∃ s', exec (.partDeadlineExpiry t) s = .next s' ∧ s'.transfer.reception = none ∧ s'.replicas = s.replicas ∧
          s'.host.counters.transfersAbandoned = raiseCounter s.host.counters.transfersAbandoned ∧
          (rec.kind = .refresh → s'.transfer.repairList = s.transfer.repairList ++ [rec.region])) ∧
      (s.transfer.refreshTimer = some d → d ≤ max s.now t → s.transfer.repairList.head? = some r →
        (s.replica r).condition = .stale →
        ∃ s', exec (.refreshTimerExpiry t) s = .next s' ∧ (s'.replica r).attempts = (s.replica r).attempts + 1 ∧
          s'.transfer.refreshTimer = none ∧ (∀ q, q ≠ r → s'.replica q = s.replica q) ∧
          ((s.replica r).attempts < 2 → s.originatedFree → (s'.replica r).condition = .stale ∧
            s'.transfer.repairStage = .requestQueued ∧ s'.transfer.repairList = s.transfer.repairList ∧
            s'.liu.originated = s.liu.originated ++ [{ item := .refreshReq r, marked := false }]) ∧
          ((s.replica r).attempts = 2 → (s'.replica r).condition = .lost ∧ s'.transfer.repairStage = .idle ∧
            r ∉ s'.transfer.repairList ∧ r ∈ s'.host.changeSet)) ∧
      (s.transfer.repairList.head? = some r → s.transfer.repairStage = .idle → s.transfer.reception = none →
        s.originatedFree →
        exec (.repairRequest t) s = .next { s with
          now := max s.now t
          transfer := { s.transfer with repairStage := .requestQueued }
          liu := { s.liu with
            originated := s.liu.originated ++ [{ item := .refreshReq r, marked := false }] } })

/-- The listen expiry: with a member heard the station enters JOINING with its first attempt placed, every entry UNKNOWN and
every replica UNSYNCED; otherwise it starts alone, MEMBER with every entry FREE and every replica CURRENT at version 0 and
zero (R101, R102, R116, R121). -/
def Obligations.ListenExpiryJoinsOrStartsAlone : Prop :=
  ∀ (t d : Time) (x : Station) (s : State), s.powered = true → s.station = .listening → s.self = some x →
    s.membership.listenTimer = some d → d ≤ max s.now t → s.originatedFree → s.liu.transmitter = .off →
    ∃ s', exec (.listenTimerExpiry t) s = .next s' ∧ s'.membership.listenTimer = none ∧ s'.budget = s.budget ∧
      s'.host.stateChanged = true ∧ (∀ y, y ≠ x → s'.member y = s.member y) ∧
      (s.membership.memberHeard = true →
        s'.station = .joining ∧ (s'.member x).presence = .joining ∧ (∀ r, s'.entry r = Entry.unknown) ∧
          (∀ r, (s'.replica r).condition = .unsynced ∧ (s'.replica r).content = (s.replica r).content) ∧
          s'.membership.join = some { attempt := 1, responder := none, runSet := [], gap := none, renewal := none } ∧
          ∃ before, s'.liu.originated = before ++ [{ item := .joinReq false, marked := false }]) ∧
      (s.membership.memberHeard = false →
        s'.station = .member ∧ (s'.member x).presence = .member ∧ (∀ r, s'.entry r = Entry.fresh) ∧
          (∀ r, (s'.replica r).condition = .current ∧ (s'.replica r).version = 0 ∧
            ∀ a, readByte (s'.replica r).content a = 0) ∧
          s'.membership.presenceTimer = some (max s.now t + 8000000))

/-- The presence timer and the renewal deadline each place one frame when they expire; the isolation timer takes the station
to LISTENING with its fault cause kept. The absence deadline of a station makes its entry ABSENT, settles its holdings with
reason OWNER_ABSENT and frees its claims; the joiner's gap deadline restarts the join with the next attempt and the responder
kept, or after the fourth takes the station to LISTENING with fault cause JOIN_FAILED (R35, R105, R108, R118, R123 to R125).
-/
def Obligations.MembershipDeadlines : Prop :=
  (∀ (t d : Time) (s : State), s.powered = true → s.notResyncing → d ≤ max s.now t →
      (s.membership.presenceTimer = some d → s.originatedFree → s.liu.holds .originated Item.isPresence = false →
          s.unit = .idle → s.station ≠ .leaving →
          ∃ s', exec (.presenceTimerExpiry t) s = .next s' ∧ s'.membership.presenceTimer = none ∧
            s'.liu.originated = s.liu.originated ++ [{ item := .presence, marked := false }] ∧
            s'.directory = s.directory ∧ s'.replicas = s.replicas) ∧
        (∀ rec, s.membership.join = some rec → rec.renewal = some d → s.originatedFree →
          s.liu.holds .originated Item.isJoinReq = false → s.station = .joining →
          ∃ s', exec (.renewalDeadlineExpiry t) s = .next s' ∧
            s'.membership.join = some { rec with renewal := none } ∧
            s'.liu.originated = s.liu.originated ++ [{ item := .joinReq true, marked := false }] ∧
            s'.directory = s.directory ∧ s'.replicas = s.replicas) ∧
        (s.membership.isolationTimer = some d →
          ∃ s', exec (.isolationTimerExpiry t) s = .next s' ∧ s'.station = .listening ∧
            s'.membership.isolationTimer = none ∧ s'.membership.faultCause = s.membership.faultCause ∧
            s'.membership.listenTimer = some (max s.now t + 25000000) ∧ s'.host.stateChanged = true)) ∧
    ∀ (t d : Time) (s : State), s.powered = true → d ≤ max s.now t →
      (∀ x, (s.member x).absence = some d → s.notResyncing → s.isSelf x = false →
          (s.station = .joining → s.isResponder x = false) →
          ∃ s', exec (.absenceDeadlineExpiry t x) s = .next s' ∧ s'.member x = MemberEntry.absent ∧
            s'.replicas = s.replicas ∧ (∀ job, job ∈ s'.transfer.jobs → job.isFor x = false) ∧
            ∀ r,
              ((s.entry r).heldBy x = true →
                (s'.entry r).state = .settling .ownerAbsent (max s.now t + 300000) ∧ (s'.entry r).lastOwner = some x) ∧
              (∀ n k, (s.entry r).state = .claimed { station := x, number := n } k → (s'.entry r).state = .free) ∧
              ((s.entry r).heldBy x = false → (∀ n k, (s.entry r).state ≠ .claimed { station := x, number := n } k) →
                (s'.entry r).state = (s.entry r).state)) ∧
        ∀ rec, s.membership.join = some rec → rec.gap = some d → s.station = .joining →
          ∃ s', exec (.gapDeadlineExpiry t) s = .next s' ∧
            (rec.attempt < 4 → s'.station = .joining ∧ s'.directory = s.directory ∧ s'.replicas = s.replicas ∧
              s'.membership.join = some { rec with attempt := rec.attempt + 1, gap := none } ∧
              s'.liu.holds .originated Item.isJoinReq = true) ∧
            (4 ≤ rec.attempt → s'.station = .listening ∧ s'.membership.faultCause = .joinFailed ∧
              s'.membership.join = none ∧ ∀ r, s'.entry r = Entry.unknown)

/-! ## The line's bits -/

/-- Every frame of good form that a station transmits is received, half-bit by half-bit, as that frame from that sender, and
arrives at the last half-bit of its CRC, whatever activity follows. A frame that a jam cuts before its last bit is faulty (R138
to R141, R150; 7.2, 7.10). -/
def Obligations.TransmittedFramesAreReceived : Prop :=
  ∀ (x : Station) (f : Frame), f.goodForm = true →
    receive (transmission x f) = some (x, f) ∧
      (∀ (began : Time) (more : List Level), (receivedCommands began (transmission x f ++ more)).head? =
        some (arrivalCommand (began + 1000 * (5 + f.payload.length)) x f)) ∧
      (∀ began : Time, receivedCommands began (transmission x f) =
        [arrivalCommand (began + 1000 * (5 + f.payload.length)) x f]) ∧
      ∀ (n : Nat) (rest : List Level), n + 2 ≤ (transmission x f).length →
        receive ((transmission x f).take n ++ jam ++ rest) = none

/-- The CRC register starts at all ones and takes each bit by the generator x^16 + x^12 + x^5 + 1; the CRC of header and
payload is sent as it stands, most significant byte first; a frame whose last two bytes differ from it is faulty. A frame
followed by its own CRC leaves the register at 0 (R140). -/
def Obligations.CrcIsComputedOverHeaderAndPayload : Prop :=
  crc [] = 0xFFFF ∧
    (∀ (bs : List Byte) (b : Byte), crc (bs ++ [b]) = (byteBits b).foldl
      (fun (reg : BitVec 16) bit => (reg <<< 1) ^^^ (if (reg.msb ^^ bit) then 2 ^ 12 + 2 ^ 5 + 1 else 0)) (crc bs)) ∧
    (∀ (x : Station) (f : Frame), frameBytes x f = frameBody x f ++ bytes16 (crc (frameBody x f))) ∧
    (∀ (body : List Byte) (hi lo : Byte), word16 hi lo ≠ crc body → readFrame (body ++ [hi, lo]) = none) ∧
    ∀ body : List Byte, crc (body ++ bytes16 (crc body)) = 0

end
end

