-- ==== Sys2Proof/Laws/State.lean ====
section
/-! SUPPORT. One lemma per field and update of the state, each true by `rfl`, so that no later proof unfolds a record
update. -/

namespace Sys2Proof.Machine

/-! ### setEntry -/

@[simp] theorem State.setEntry_now (s : State) (r : Region) (e : Entry) : (s.setEntry r e).now = s.now := rfl
@[simp] theorem State.setEntry_powered (s : State) (r : Region) (e : Entry) : (s.setEntry r e).powered = s.powered := rfl
@[simp] theorem State.setEntry_directory (s : State) (r : Region) (e : Entry) : (s.setEntry r e).directory = s.directory.set r e := rfl
@[simp] theorem State.setEntry_claimCounter (s : State) (r : Region) (e : Entry) : (s.setEntry r e).claimCounter = s.claimCounter := rfl
@[simp] theorem State.setEntry_budget (s : State) (r : Region) (e : Entry) : (s.setEntry r e).budget = s.budget := rfl
@[simp] theorem State.setEntry_replicas (s : State) (r : Region) (e : Entry) : (s.setEntry r e).replicas = s.replicas := rfl
@[simp] theorem State.setEntry_transfer (s : State) (r : Region) (e : Entry) : (s.setEntry r e).transfer = s.transfer := rfl
@[simp] theorem State.setEntry_membership (s : State) (r : Region) (e : Entry) : (s.setEntry r e).membership = s.membership := rfl
@[simp] theorem State.setEntry_liu (s : State) (r : Region) (e : Entry) : (s.setEntry r e).liu = s.liu := rfl
@[simp] theorem State.setEntry_unit (s : State) (r : Region) (e : Entry) : (s.setEntry r e).unit = s.unit := rfl
@[simp] theorem State.setEntry_host (s : State) (r : Region) (e : Entry) : (s.setEntry r e).host = s.host := rfl
@[simp] theorem State.setEntry_freeCount (s : State) (r : Region) (e : Entry) : (s.setEntry r e).freeCount = s.freeCount := rfl
@[simp] theorem State.setEntry_lastReset (s : State) (r : Region) (e : Entry) : (s.setEntry r e).lastReset = s.lastReset := rfl
@[simp] theorem State.setEntry_pending (s : State) (r : Region) (e : Entry) : (s.setEntry r e).pending = s.pending := rfl

/-! ### setReplica -/

@[simp] theorem State.setReplica_now (s : State) (r : Region) (e : Replica) : (s.setReplica r e).now = s.now := rfl
@[simp] theorem State.setReplica_powered (s : State) (r : Region) (e : Replica) : (s.setReplica r e).powered = s.powered := rfl
@[simp] theorem State.setReplica_directory (s : State) (r : Region) (e : Replica) : (s.setReplica r e).directory = s.directory := rfl
@[simp] theorem State.setReplica_claimCounter (s : State) (r : Region) (e : Replica) : (s.setReplica r e).claimCounter = s.claimCounter := rfl
@[simp] theorem State.setReplica_budget (s : State) (r : Region) (e : Replica) : (s.setReplica r e).budget = s.budget := rfl
@[simp] theorem State.setReplica_replicas (s : State) (r : Region) (e : Replica) : (s.setReplica r e).replicas = s.replicas.set r e := rfl
@[simp] theorem State.setReplica_transfer (s : State) (r : Region) (e : Replica) : (s.setReplica r e).transfer = s.transfer := rfl
@[simp] theorem State.setReplica_membership (s : State) (r : Region) (e : Replica) : (s.setReplica r e).membership = s.membership := rfl
@[simp] theorem State.setReplica_liu (s : State) (r : Region) (e : Replica) : (s.setReplica r e).liu = s.liu := rfl
@[simp] theorem State.setReplica_unit (s : State) (r : Region) (e : Replica) : (s.setReplica r e).unit = s.unit := rfl
@[simp] theorem State.setReplica_host (s : State) (r : Region) (e : Replica) : (s.setReplica r e).host = s.host := rfl
@[simp] theorem State.setReplica_freeCount (s : State) (r : Region) (e : Replica) : (s.setReplica r e).freeCount = s.freeCount := rfl
@[simp] theorem State.setReplica_lastReset (s : State) (r : Region) (e : Replica) : (s.setReplica r e).lastReset = s.lastReset := rfl
@[simp] theorem State.setReplica_pending (s : State) (r : Region) (e : Replica) : (s.setReplica r e).pending = s.pending := rfl

/-! ### setMember -/

@[simp] theorem State.setMember_now (s : State) (x : Station) (e : MemberEntry) : (s.setMember x e).now = s.now := rfl
@[simp] theorem State.setMember_powered (s : State) (x : Station) (e : MemberEntry) : (s.setMember x e).powered = s.powered := rfl
@[simp] theorem State.setMember_directory (s : State) (x : Station) (e : MemberEntry) : (s.setMember x e).directory = s.directory := rfl
@[simp] theorem State.setMember_claimCounter (s : State) (x : Station) (e : MemberEntry) : (s.setMember x e).claimCounter = s.claimCounter := rfl
@[simp] theorem State.setMember_budget (s : State) (x : Station) (e : MemberEntry) : (s.setMember x e).budget = s.budget := rfl
@[simp] theorem State.setMember_replicas (s : State) (x : Station) (e : MemberEntry) : (s.setMember x e).replicas = s.replicas := rfl
@[simp] theorem State.setMember_transfer (s : State) (x : Station) (e : MemberEntry) : (s.setMember x e).transfer = s.transfer := rfl
@[simp] theorem State.setMember_liu (s : State) (x : Station) (e : MemberEntry) : (s.setMember x e).liu = s.liu := rfl
@[simp] theorem State.setMember_unit (s : State) (x : Station) (e : MemberEntry) : (s.setMember x e).unit = s.unit := rfl
@[simp] theorem State.setMember_host (s : State) (x : Station) (e : MemberEntry) : (s.setMember x e).host = s.host := rfl
@[simp] theorem State.setMember_freeCount (s : State) (x : Station) (e : MemberEntry) : (s.setMember x e).freeCount = s.freeCount := rfl
@[simp] theorem State.setMember_lastReset (s : State) (x : Station) (e : MemberEntry) : (s.setMember x e).lastReset = s.lastReset := rfl
@[simp] theorem State.setMember_pending (s : State) (x : Station) (e : MemberEntry) : (s.setMember x e).pending = s.pending := rfl

/-! ### withMembership -/

@[simp] theorem State.withMembership_now (s : State) (f : Membership → Membership) : (s.withMembership f).now = s.now := rfl
@[simp] theorem State.withMembership_powered (s : State) (f : Membership → Membership) : (s.withMembership f).powered = s.powered := rfl
@[simp] theorem State.withMembership_directory (s : State) (f : Membership → Membership) : (s.withMembership f).directory = s.directory := rfl
@[simp] theorem State.withMembership_claimCounter (s : State) (f : Membership → Membership) : (s.withMembership f).claimCounter = s.claimCounter := rfl
@[simp] theorem State.withMembership_budget (s : State) (f : Membership → Membership) : (s.withMembership f).budget = s.budget := rfl
@[simp] theorem State.withMembership_replicas (s : State) (f : Membership → Membership) : (s.withMembership f).replicas = s.replicas := rfl
@[simp] theorem State.withMembership_transfer (s : State) (f : Membership → Membership) : (s.withMembership f).transfer = s.transfer := rfl
@[simp] theorem State.withMembership_membership (s : State) (f : Membership → Membership) : (s.withMembership f).membership = f s.membership := rfl
@[simp] theorem State.withMembership_liu (s : State) (f : Membership → Membership) : (s.withMembership f).liu = s.liu := rfl
@[simp] theorem State.withMembership_unit (s : State) (f : Membership → Membership) : (s.withMembership f).unit = s.unit := rfl
@[simp] theorem State.withMembership_host (s : State) (f : Membership → Membership) : (s.withMembership f).host = s.host := rfl
@[simp] theorem State.withMembership_freeCount (s : State) (f : Membership → Membership) : (s.withMembership f).freeCount = s.freeCount := rfl
@[simp] theorem State.withMembership_lastReset (s : State) (f : Membership → Membership) : (s.withMembership f).lastReset = s.lastReset := rfl
@[simp] theorem State.withMembership_pending (s : State) (f : Membership → Membership) : (s.withMembership f).pending = s.pending := rfl

/-! ### withTransfer -/

@[simp] theorem State.withTransfer_now (s : State) (f : Transfer → Transfer) : (s.withTransfer f).now = s.now := rfl
@[simp] theorem State.withTransfer_powered (s : State) (f : Transfer → Transfer) : (s.withTransfer f).powered = s.powered := rfl
@[simp] theorem State.withTransfer_directory (s : State) (f : Transfer → Transfer) : (s.withTransfer f).directory = s.directory := rfl
@[simp] theorem State.withTransfer_claimCounter (s : State) (f : Transfer → Transfer) : (s.withTransfer f).claimCounter = s.claimCounter := rfl
@[simp] theorem State.withTransfer_budget (s : State) (f : Transfer → Transfer) : (s.withTransfer f).budget = s.budget := rfl
@[simp] theorem State.withTransfer_replicas (s : State) (f : Transfer → Transfer) : (s.withTransfer f).replicas = s.replicas := rfl
@[simp] theorem State.withTransfer_transfer (s : State) (f : Transfer → Transfer) : (s.withTransfer f).transfer = f s.transfer := rfl
@[simp] theorem State.withTransfer_membership (s : State) (f : Transfer → Transfer) : (s.withTransfer f).membership = s.membership := rfl
@[simp] theorem State.withTransfer_liu (s : State) (f : Transfer → Transfer) : (s.withTransfer f).liu = s.liu := rfl
@[simp] theorem State.withTransfer_unit (s : State) (f : Transfer → Transfer) : (s.withTransfer f).unit = s.unit := rfl
@[simp] theorem State.withTransfer_host (s : State) (f : Transfer → Transfer) : (s.withTransfer f).host = s.host := rfl
@[simp] theorem State.withTransfer_freeCount (s : State) (f : Transfer → Transfer) : (s.withTransfer f).freeCount = s.freeCount := rfl
@[simp] theorem State.withTransfer_lastReset (s : State) (f : Transfer → Transfer) : (s.withTransfer f).lastReset = s.lastReset := rfl
@[simp] theorem State.withTransfer_pending (s : State) (f : Transfer → Transfer) : (s.withTransfer f).pending = s.pending := rfl

/-! ### withLiu -/

@[simp] theorem State.withLiu_now (s : State) (f : Liu → Liu) : (s.withLiu f).now = s.now := rfl
@[simp] theorem State.withLiu_powered (s : State) (f : Liu → Liu) : (s.withLiu f).powered = s.powered := rfl
@[simp] theorem State.withLiu_directory (s : State) (f : Liu → Liu) : (s.withLiu f).directory = s.directory := rfl
@[simp] theorem State.withLiu_claimCounter (s : State) (f : Liu → Liu) : (s.withLiu f).claimCounter = s.claimCounter := rfl
@[simp] theorem State.withLiu_budget (s : State) (f : Liu → Liu) : (s.withLiu f).budget = s.budget := rfl
@[simp] theorem State.withLiu_replicas (s : State) (f : Liu → Liu) : (s.withLiu f).replicas = s.replicas := rfl
@[simp] theorem State.withLiu_transfer (s : State) (f : Liu → Liu) : (s.withLiu f).transfer = s.transfer := rfl
@[simp] theorem State.withLiu_membership (s : State) (f : Liu → Liu) : (s.withLiu f).membership = s.membership := rfl
@[simp] theorem State.withLiu_liu (s : State) (f : Liu → Liu) : (s.withLiu f).liu = f s.liu := rfl
@[simp] theorem State.withLiu_unit (s : State) (f : Liu → Liu) : (s.withLiu f).unit = s.unit := rfl
@[simp] theorem State.withLiu_host (s : State) (f : Liu → Liu) : (s.withLiu f).host = s.host := rfl
@[simp] theorem State.withLiu_freeCount (s : State) (f : Liu → Liu) : (s.withLiu f).freeCount = s.freeCount := rfl
@[simp] theorem State.withLiu_lastReset (s : State) (f : Liu → Liu) : (s.withLiu f).lastReset = s.lastReset := rfl
@[simp] theorem State.withLiu_pending (s : State) (f : Liu → Liu) : (s.withLiu f).pending = s.pending := rfl

/-! ### withHost -/

@[simp] theorem State.withHost_now (s : State) (f : HostLink → HostLink) : (s.withHost f).now = s.now := rfl
@[simp] theorem State.withHost_powered (s : State) (f : HostLink → HostLink) : (s.withHost f).powered = s.powered := rfl
@[simp] theorem State.withHost_directory (s : State) (f : HostLink → HostLink) : (s.withHost f).directory = s.directory := rfl
@[simp] theorem State.withHost_claimCounter (s : State) (f : HostLink → HostLink) : (s.withHost f).claimCounter = s.claimCounter := rfl
@[simp] theorem State.withHost_budget (s : State) (f : HostLink → HostLink) : (s.withHost f).budget = s.budget := rfl
@[simp] theorem State.withHost_replicas (s : State) (f : HostLink → HostLink) : (s.withHost f).replicas = s.replicas := rfl
@[simp] theorem State.withHost_transfer (s : State) (f : HostLink → HostLink) : (s.withHost f).transfer = s.transfer := rfl
@[simp] theorem State.withHost_membership (s : State) (f : HostLink → HostLink) : (s.withHost f).membership = s.membership := rfl
@[simp] theorem State.withHost_liu (s : State) (f : HostLink → HostLink) : (s.withHost f).liu = s.liu := rfl
@[simp] theorem State.withHost_unit (s : State) (f : HostLink → HostLink) : (s.withHost f).unit = s.unit := rfl
@[simp] theorem State.withHost_host (s : State) (f : HostLink → HostLink) : (s.withHost f).host = f s.host := rfl
@[simp] theorem State.withHost_freeCount (s : State) (f : HostLink → HostLink) : (s.withHost f).freeCount = s.freeCount := rfl
@[simp] theorem State.withHost_lastReset (s : State) (f : HostLink → HostLink) : (s.withHost f).lastReset = s.lastReset := rfl
@[simp] theorem State.withHost_pending (s : State) (f : HostLink → HostLink) : (s.withHost f).pending = s.pending := rfl

/-! ### advance -/

@[simp] theorem State.advance_now (s : State) (t : Time) : (s.advance t).now = max s.now t := rfl
@[simp] theorem State.advance_powered (s : State) (t : Time) : (s.advance t).powered = s.powered := rfl
@[simp] theorem State.advance_directory (s : State) (t : Time) : (s.advance t).directory = s.directory := rfl
@[simp] theorem State.advance_claimCounter (s : State) (t : Time) : (s.advance t).claimCounter = s.claimCounter := rfl
@[simp] theorem State.advance_budget (s : State) (t : Time) : (s.advance t).budget = s.budget := rfl
@[simp] theorem State.advance_replicas (s : State) (t : Time) : (s.advance t).replicas = s.replicas := rfl
@[simp] theorem State.advance_transfer (s : State) (t : Time) : (s.advance t).transfer = s.transfer := rfl
@[simp] theorem State.advance_membership (s : State) (t : Time) : (s.advance t).membership = s.membership := rfl
@[simp] theorem State.advance_liu (s : State) (t : Time) : (s.advance t).liu = s.liu := rfl
@[simp] theorem State.advance_unit (s : State) (t : Time) : (s.advance t).unit = s.unit := rfl
@[simp] theorem State.advance_host (s : State) (t : Time) : (s.advance t).host = s.host := rfl
@[simp] theorem State.advance_freeCount (s : State) (t : Time) : (s.advance t).freeCount = s.freeCount := rfl
@[simp] theorem State.advance_lastReset (s : State) (t : Time) : (s.advance t).lastReset = s.lastReset := rfl
@[simp] theorem State.advance_pending (s : State) (t : Time) : (s.advance t).pending = s.pending := rfl

/-! ### proceed -/

@[simp] theorem State.proceed_now (s : State) (run : Running) (p : Progress) : (s.proceed run p).now = s.now := rfl
@[simp] theorem State.proceed_powered (s : State) (run : Running) (p : Progress) : (s.proceed run p).powered = s.powered := rfl
@[simp] theorem State.proceed_directory (s : State) (run : Running) (p : Progress) : (s.proceed run p).directory = s.directory := rfl
@[simp] theorem State.proceed_claimCounter (s : State) (run : Running) (p : Progress) : (s.proceed run p).claimCounter = s.claimCounter := rfl
@[simp] theorem State.proceed_budget (s : State) (run : Running) (p : Progress) : (s.proceed run p).budget = s.budget := rfl
@[simp] theorem State.proceed_replicas (s : State) (run : Running) (p : Progress) : (s.proceed run p).replicas = s.replicas := rfl
@[simp] theorem State.proceed_transfer (s : State) (run : Running) (p : Progress) : (s.proceed run p).transfer = s.transfer := rfl
@[simp] theorem State.proceed_membership (s : State) (run : Running) (p : Progress) : (s.proceed run p).membership = s.membership := rfl
@[simp] theorem State.proceed_liu (s : State) (run : Running) (p : Progress) : (s.proceed run p).liu = s.liu := rfl
@[simp] theorem State.proceed_unit (s : State) (run : Running) (p : Progress) : (s.proceed run p).unit = .executing { run with progress := p } := rfl
@[simp] theorem State.proceed_host (s : State) (run : Running) (p : Progress) : (s.proceed run p).host = s.host := rfl
@[simp] theorem State.proceed_freeCount (s : State) (run : Running) (p : Progress) : (s.proceed run p).freeCount = s.freeCount := rfl
@[simp] theorem State.proceed_lastReset (s : State) (run : Running) (p : Progress) : (s.proceed run p).lastReset = s.lastReset := rfl
@[simp] theorem State.proceed_pending (s : State) (run : Running) (p : Progress) : (s.proceed run p).pending = s.pending := rfl

/-! ### addChange -/

@[simp] theorem State.addChange_now (s : State) (r : Region) : (s.addChange r).now = s.now := rfl
@[simp] theorem State.addChange_powered (s : State) (r : Region) : (s.addChange r).powered = s.powered := rfl
@[simp] theorem State.addChange_directory (s : State) (r : Region) : (s.addChange r).directory = s.directory := rfl
@[simp] theorem State.addChange_claimCounter (s : State) (r : Region) : (s.addChange r).claimCounter = s.claimCounter := rfl
@[simp] theorem State.addChange_budget (s : State) (r : Region) : (s.addChange r).budget = s.budget := rfl
@[simp] theorem State.addChange_replicas (s : State) (r : Region) : (s.addChange r).replicas = s.replicas := rfl
@[simp] theorem State.addChange_transfer (s : State) (r : Region) : (s.addChange r).transfer = s.transfer := rfl
@[simp] theorem State.addChange_membership (s : State) (r : Region) : (s.addChange r).membership = s.membership := rfl
@[simp] theorem State.addChange_liu (s : State) (r : Region) : (s.addChange r).liu = s.liu := rfl
@[simp] theorem State.addChange_unit (s : State) (r : Region) : (s.addChange r).unit = s.unit := rfl
@[simp] theorem State.addChange_freeCount (s : State) (r : Region) : (s.addChange r).freeCount = s.freeCount := rfl
@[simp] theorem State.addChange_lastReset (s : State) (r : Region) : (s.addChange r).lastReset = s.lastReset := rfl
@[simp] theorem State.addChange_pending (s : State) (r : Region) : (s.addChange r).pending = s.pending := rfl

/-! ### tellEntry -/

@[simp] theorem State.tellEntry_now (s : State) (r : Region) (e : Entry) : (s.tellEntry r e).now = s.now := rfl
@[simp] theorem State.tellEntry_powered (s : State) (r : Region) (e : Entry) : (s.tellEntry r e).powered = s.powered := rfl
@[simp] theorem State.tellEntry_directory (s : State) (r : Region) (e : Entry) : (s.tellEntry r e).directory = s.directory.set r e := rfl
@[simp] theorem State.tellEntry_claimCounter (s : State) (r : Region) (e : Entry) : (s.tellEntry r e).claimCounter = s.claimCounter := rfl
@[simp] theorem State.tellEntry_budget (s : State) (r : Region) (e : Entry) : (s.tellEntry r e).budget = s.budget := rfl
@[simp] theorem State.tellEntry_replicas (s : State) (r : Region) (e : Entry) : (s.tellEntry r e).replicas = s.replicas := rfl
@[simp] theorem State.tellEntry_transfer (s : State) (r : Region) (e : Entry) : (s.tellEntry r e).transfer = s.transfer := rfl
@[simp] theorem State.tellEntry_membership (s : State) (r : Region) (e : Entry) : (s.tellEntry r e).membership = s.membership := rfl
@[simp] theorem State.tellEntry_liu (s : State) (r : Region) (e : Entry) : (s.tellEntry r e).liu = s.liu := rfl
@[simp] theorem State.tellEntry_unit (s : State) (r : Region) (e : Entry) : (s.tellEntry r e).unit = s.unit := rfl
@[simp] theorem State.tellEntry_freeCount (s : State) (r : Region) (e : Entry) : (s.tellEntry r e).freeCount = s.freeCount := rfl
@[simp] theorem State.tellEntry_lastReset (s : State) (r : Region) (e : Entry) : (s.tellEntry r e).lastReset = s.lastReset := rfl
@[simp] theorem State.tellEntry_pending (s : State) (r : Region) (e : Entry) : (s.tellEntry r e).pending = s.pending := rfl

/-! ### setStateChanged -/

@[simp] theorem State.setStateChanged_now (s : State) : (s.setStateChanged).now = s.now := rfl
@[simp] theorem State.setStateChanged_powered (s : State) : (s.setStateChanged).powered = s.powered := rfl
@[simp] theorem State.setStateChanged_directory (s : State) : (s.setStateChanged).directory = s.directory := rfl
@[simp] theorem State.setStateChanged_claimCounter (s : State) : (s.setStateChanged).claimCounter = s.claimCounter := rfl
@[simp] theorem State.setStateChanged_budget (s : State) : (s.setStateChanged).budget = s.budget := rfl
@[simp] theorem State.setStateChanged_replicas (s : State) : (s.setStateChanged).replicas = s.replicas := rfl
@[simp] theorem State.setStateChanged_transfer (s : State) : (s.setStateChanged).transfer = s.transfer := rfl
@[simp] theorem State.setStateChanged_membership (s : State) : (s.setStateChanged).membership = s.membership := rfl
@[simp] theorem State.setStateChanged_liu (s : State) : (s.setStateChanged).liu = s.liu := rfl
@[simp] theorem State.setStateChanged_unit (s : State) : (s.setStateChanged).unit = s.unit := rfl
@[simp] theorem State.setStateChanged_freeCount (s : State) : (s.setStateChanged).freeCount = s.freeCount := rfl
@[simp] theorem State.setStateChanged_lastReset (s : State) : (s.setStateChanged).lastReset = s.lastReset := rfl
@[simp] theorem State.setStateChanged_pending (s : State) : (s.setStateChanged).pending = s.pending := rfl

/-! ### raiseFrameErrors -/

@[simp] theorem State.raiseFrameErrors_now (s : State) : (s.raiseFrameErrors).now = s.now := rfl
@[simp] theorem State.raiseFrameErrors_powered (s : State) : (s.raiseFrameErrors).powered = s.powered := rfl
@[simp] theorem State.raiseFrameErrors_directory (s : State) : (s.raiseFrameErrors).directory = s.directory := rfl
@[simp] theorem State.raiseFrameErrors_claimCounter (s : State) : (s.raiseFrameErrors).claimCounter = s.claimCounter := rfl
@[simp] theorem State.raiseFrameErrors_budget (s : State) : (s.raiseFrameErrors).budget = s.budget := rfl
@[simp] theorem State.raiseFrameErrors_replicas (s : State) : (s.raiseFrameErrors).replicas = s.replicas := rfl
@[simp] theorem State.raiseFrameErrors_transfer (s : State) : (s.raiseFrameErrors).transfer = s.transfer := rfl
@[simp] theorem State.raiseFrameErrors_membership (s : State) : (s.raiseFrameErrors).membership = s.membership := rfl
@[simp] theorem State.raiseFrameErrors_liu (s : State) : (s.raiseFrameErrors).liu = s.liu := rfl
@[simp] theorem State.raiseFrameErrors_unit (s : State) : (s.raiseFrameErrors).unit = s.unit := rfl
@[simp] theorem State.raiseFrameErrors_freeCount (s : State) : (s.raiseFrameErrors).freeCount = s.freeCount := rfl
@[simp] theorem State.raiseFrameErrors_lastReset (s : State) : (s.raiseFrameErrors).lastReset = s.lastReset := rfl
@[simp] theorem State.raiseFrameErrors_pending (s : State) : (s.raiseFrameErrors).pending = s.pending := rfl

/-! ### raiseTxFailures -/

@[simp] theorem State.raiseTxFailures_now (s : State) : (s.raiseTxFailures).now = s.now := rfl
@[simp] theorem State.raiseTxFailures_powered (s : State) : (s.raiseTxFailures).powered = s.powered := rfl
@[simp] theorem State.raiseTxFailures_directory (s : State) : (s.raiseTxFailures).directory = s.directory := rfl
@[simp] theorem State.raiseTxFailures_claimCounter (s : State) : (s.raiseTxFailures).claimCounter = s.claimCounter := rfl
@[simp] theorem State.raiseTxFailures_budget (s : State) : (s.raiseTxFailures).budget = s.budget := rfl
@[simp] theorem State.raiseTxFailures_replicas (s : State) : (s.raiseTxFailures).replicas = s.replicas := rfl
@[simp] theorem State.raiseTxFailures_transfer (s : State) : (s.raiseTxFailures).transfer = s.transfer := rfl
@[simp] theorem State.raiseTxFailures_membership (s : State) : (s.raiseTxFailures).membership = s.membership := rfl
@[simp] theorem State.raiseTxFailures_liu (s : State) : (s.raiseTxFailures).liu = s.liu := rfl
@[simp] theorem State.raiseTxFailures_unit (s : State) : (s.raiseTxFailures).unit = s.unit := rfl
@[simp] theorem State.raiseTxFailures_freeCount (s : State) : (s.raiseTxFailures).freeCount = s.freeCount := rfl
@[simp] theorem State.raiseTxFailures_lastReset (s : State) : (s.raiseTxFailures).lastReset = s.lastReset := rfl
@[simp] theorem State.raiseTxFailures_pending (s : State) : (s.raiseTxFailures).pending = s.pending := rfl

/-! ### raiseForeignUpdates -/

@[simp] theorem State.raiseForeignUpdates_now (s : State) : (s.raiseForeignUpdates).now = s.now := rfl
@[simp] theorem State.raiseForeignUpdates_powered (s : State) : (s.raiseForeignUpdates).powered = s.powered := rfl
@[simp] theorem State.raiseForeignUpdates_directory (s : State) : (s.raiseForeignUpdates).directory = s.directory := rfl
@[simp] theorem State.raiseForeignUpdates_claimCounter (s : State) : (s.raiseForeignUpdates).claimCounter = s.claimCounter := rfl
@[simp] theorem State.raiseForeignUpdates_budget (s : State) : (s.raiseForeignUpdates).budget = s.budget := rfl
@[simp] theorem State.raiseForeignUpdates_replicas (s : State) : (s.raiseForeignUpdates).replicas = s.replicas := rfl
@[simp] theorem State.raiseForeignUpdates_transfer (s : State) : (s.raiseForeignUpdates).transfer = s.transfer := rfl
@[simp] theorem State.raiseForeignUpdates_membership (s : State) : (s.raiseForeignUpdates).membership = s.membership := rfl
@[simp] theorem State.raiseForeignUpdates_liu (s : State) : (s.raiseForeignUpdates).liu = s.liu := rfl
@[simp] theorem State.raiseForeignUpdates_unit (s : State) : (s.raiseForeignUpdates).unit = s.unit := rfl
@[simp] theorem State.raiseForeignUpdates_freeCount (s : State) : (s.raiseForeignUpdates).freeCount = s.freeCount := rfl
@[simp] theorem State.raiseForeignUpdates_lastReset (s : State) : (s.raiseForeignUpdates).lastReset = s.lastReset := rfl
@[simp] theorem State.raiseForeignUpdates_pending (s : State) : (s.raiseForeignUpdates).pending = s.pending := rfl

/-! ### raiseVersionGaps -/

@[simp] theorem State.raiseVersionGaps_now (s : State) : (s.raiseVersionGaps).now = s.now := rfl
@[simp] theorem State.raiseVersionGaps_powered (s : State) : (s.raiseVersionGaps).powered = s.powered := rfl
@[simp] theorem State.raiseVersionGaps_directory (s : State) : (s.raiseVersionGaps).directory = s.directory := rfl
@[simp] theorem State.raiseVersionGaps_claimCounter (s : State) : (s.raiseVersionGaps).claimCounter = s.claimCounter := rfl
@[simp] theorem State.raiseVersionGaps_budget (s : State) : (s.raiseVersionGaps).budget = s.budget := rfl
@[simp] theorem State.raiseVersionGaps_replicas (s : State) : (s.raiseVersionGaps).replicas = s.replicas := rfl
@[simp] theorem State.raiseVersionGaps_transfer (s : State) : (s.raiseVersionGaps).transfer = s.transfer := rfl
@[simp] theorem State.raiseVersionGaps_membership (s : State) : (s.raiseVersionGaps).membership = s.membership := rfl
@[simp] theorem State.raiseVersionGaps_liu (s : State) : (s.raiseVersionGaps).liu = s.liu := rfl
@[simp] theorem State.raiseVersionGaps_unit (s : State) : (s.raiseVersionGaps).unit = s.unit := rfl
@[simp] theorem State.raiseVersionGaps_freeCount (s : State) : (s.raiseVersionGaps).freeCount = s.freeCount := rfl
@[simp] theorem State.raiseVersionGaps_lastReset (s : State) : (s.raiseVersionGaps).lastReset = s.lastReset := rfl
@[simp] theorem State.raiseVersionGaps_pending (s : State) : (s.raiseVersionGaps).pending = s.pending := rfl

/-! ### raiseObjectionsWithdrawn -/

@[simp] theorem State.raiseObjectionsWithdrawn_now (s : State) : (s.raiseObjectionsWithdrawn).now = s.now := rfl
@[simp] theorem State.raiseObjectionsWithdrawn_powered (s : State) : (s.raiseObjectionsWithdrawn).powered = s.powered := rfl
@[simp] theorem State.raiseObjectionsWithdrawn_directory (s : State) : (s.raiseObjectionsWithdrawn).directory = s.directory := rfl
@[simp] theorem State.raiseObjectionsWithdrawn_claimCounter (s : State) : (s.raiseObjectionsWithdrawn).claimCounter = s.claimCounter := rfl
@[simp] theorem State.raiseObjectionsWithdrawn_budget (s : State) : (s.raiseObjectionsWithdrawn).budget = s.budget := rfl
@[simp] theorem State.raiseObjectionsWithdrawn_replicas (s : State) : (s.raiseObjectionsWithdrawn).replicas = s.replicas := rfl
@[simp] theorem State.raiseObjectionsWithdrawn_transfer (s : State) : (s.raiseObjectionsWithdrawn).transfer = s.transfer := rfl
@[simp] theorem State.raiseObjectionsWithdrawn_membership (s : State) : (s.raiseObjectionsWithdrawn).membership = s.membership := rfl
@[simp] theorem State.raiseObjectionsWithdrawn_liu (s : State) : (s.raiseObjectionsWithdrawn).liu = s.liu := rfl
@[simp] theorem State.raiseObjectionsWithdrawn_unit (s : State) : (s.raiseObjectionsWithdrawn).unit = s.unit := rfl
@[simp] theorem State.raiseObjectionsWithdrawn_freeCount (s : State) : (s.raiseObjectionsWithdrawn).freeCount = s.freeCount := rfl
@[simp] theorem State.raiseObjectionsWithdrawn_lastReset (s : State) : (s.raiseObjectionsWithdrawn).lastReset = s.lastReset := rfl
@[simp] theorem State.raiseObjectionsWithdrawn_pending (s : State) : (s.raiseObjectionsWithdrawn).pending = s.pending := rfl

/-! ### raiseTransfersAbandoned -/

@[simp] theorem State.raiseTransfersAbandoned_now (s : State) : (s.raiseTransfersAbandoned).now = s.now := rfl
@[simp] theorem State.raiseTransfersAbandoned_powered (s : State) : (s.raiseTransfersAbandoned).powered = s.powered := rfl
@[simp] theorem State.raiseTransfersAbandoned_directory (s : State) : (s.raiseTransfersAbandoned).directory = s.directory := rfl
@[simp] theorem State.raiseTransfersAbandoned_claimCounter (s : State) : (s.raiseTransfersAbandoned).claimCounter = s.claimCounter := rfl
@[simp] theorem State.raiseTransfersAbandoned_budget (s : State) : (s.raiseTransfersAbandoned).budget = s.budget := rfl
@[simp] theorem State.raiseTransfersAbandoned_replicas (s : State) : (s.raiseTransfersAbandoned).replicas = s.replicas := rfl
@[simp] theorem State.raiseTransfersAbandoned_transfer (s : State) : (s.raiseTransfersAbandoned).transfer = s.transfer := rfl
@[simp] theorem State.raiseTransfersAbandoned_membership (s : State) : (s.raiseTransfersAbandoned).membership = s.membership := rfl
@[simp] theorem State.raiseTransfersAbandoned_liu (s : State) : (s.raiseTransfersAbandoned).liu = s.liu := rfl
@[simp] theorem State.raiseTransfersAbandoned_unit (s : State) : (s.raiseTransfersAbandoned).unit = s.unit := rfl
@[simp] theorem State.raiseTransfersAbandoned_freeCount (s : State) : (s.raiseTransfersAbandoned).freeCount = s.freeCount := rfl
@[simp] theorem State.raiseTransfersAbandoned_lastReset (s : State) : (s.raiseTransfersAbandoned).lastReset = s.lastReset := rfl
@[simp] theorem State.raiseTransfersAbandoned_pending (s : State) : (s.raiseTransfersAbandoned).pending = s.pending := rfl

/-! ### cancel -/

@[simp] theorem State.cancel_now (s : State) (q : QueueId) (p : Item → Bool) : (s.cancel q p).now = s.now := rfl
@[simp] theorem State.cancel_powered (s : State) (q : QueueId) (p : Item → Bool) : (s.cancel q p).powered = s.powered := rfl
@[simp] theorem State.cancel_directory (s : State) (q : QueueId) (p : Item → Bool) : (s.cancel q p).directory = s.directory := rfl
@[simp] theorem State.cancel_claimCounter (s : State) (q : QueueId) (p : Item → Bool) : (s.cancel q p).claimCounter = s.claimCounter := rfl
@[simp] theorem State.cancel_budget (s : State) (q : QueueId) (p : Item → Bool) : (s.cancel q p).budget = s.budget := rfl
@[simp] theorem State.cancel_replicas (s : State) (q : QueueId) (p : Item → Bool) : (s.cancel q p).replicas = s.replicas := rfl
@[simp] theorem State.cancel_transfer (s : State) (q : QueueId) (p : Item → Bool) : (s.cancel q p).transfer = s.transfer := rfl
@[simp] theorem State.cancel_membership (s : State) (q : QueueId) (p : Item → Bool) : (s.cancel q p).membership = s.membership := rfl
@[simp] theorem State.cancel_liu (s : State) (q : QueueId) (p : Item → Bool) : (s.cancel q p).liu = s.liu.cancel q p := rfl
@[simp] theorem State.cancel_unit (s : State) (q : QueueId) (p : Item → Bool) : (s.cancel q p).unit = s.unit := rfl
@[simp] theorem State.cancel_host (s : State) (q : QueueId) (p : Item → Bool) : (s.cancel q p).host = s.host := rfl
@[simp] theorem State.cancel_freeCount (s : State) (q : QueueId) (p : Item → Bool) : (s.cancel q p).freeCount = s.freeCount := rfl
@[simp] theorem State.cancel_lastReset (s : State) (q : QueueId) (p : Item → Bool) : (s.cancel q p).lastReset = s.lastReset := rfl
@[simp] theorem State.cancel_pending (s : State) (q : QueueId) (p : Item → Bool) : (s.cancel q p).pending = s.pending := rfl

/-! ### Reads of the register groups -/

@[simp] theorem State.entry_setEntry_self (s : State) (r : Region) (e : Entry) : (s.setEntry r e).entry r = e := by
  simp [State.entry]

theorem State.entry_setEntry_ne (s : State) {r r' : Region} (e : Entry) (h : r' ≠ r) :
    (s.setEntry r e).entry r' = s.entry r' := by
  simp only [State.entry, State.setEntry_directory, Fin.getElem_fin]
  exact Vector.getElem_set_ne _ _ fun e => h (Fin.ext e.symm)

theorem State.entry_setEntry (s : State) (r r' : Region) (e : Entry) :
    (s.setEntry r e).entry r' = if r' = r then e else s.entry r' := by
  split
  · next h => subst h; simp
  · next h => exact State.entry_setEntry_ne s e h

@[simp] theorem State.replica_setReplica_self (s : State) (r : Region) (e : Replica) :
    (s.setReplica r e).replica r = e := by
  simp [State.replica]

theorem State.replica_setReplica_ne (s : State) {r r' : Region} (e : Replica) (h : r' ≠ r) :
    (s.setReplica r e).replica r' = s.replica r' := by
  simp only [State.replica, State.setReplica_replicas, Fin.getElem_fin]
  exact Vector.getElem_set_ne _ _ fun e => h (Fin.ext e.symm)

theorem State.replica_setReplica (s : State) (r r' : Region) (e : Replica) :
    (s.setReplica r e).replica r' = if r' = r then e else s.replica r' := by
  split
  · next h => subst h; simp
  · next h => exact State.replica_setReplica_ne s e h

@[simp] theorem State.member_setMember_self (s : State) (x : Station) (e : MemberEntry) :
    (s.setMember x e).member x = e := by
  simp [State.member, State.setMember]

theorem State.member_setMember_ne (s : State) {x y : Station} (e : MemberEntry) (h : y ≠ x) :
    (s.setMember x e).member y = s.member y := by
  simp only [State.member, State.setMember, Fin.getElem_fin]
  exact Vector.getElem_set_ne _ _ fun e => h (Fin.ext e.symm)

/-- A read of a register group depends on that group alone. -/
theorem State.entry_congr {s t : State} (h : t.directory = s.directory) (r : Region) : t.entry r = s.entry r := by
  simp [State.entry, h]

theorem State.replica_congr {s t : State} (h : t.replicas = s.replicas) (r : Region) : t.replica r = s.replica r := by
  simp [State.replica, h]

theorem State.member_congr {s t : State} (h : t.membership = s.membership) (x : Station) : t.member x = s.member x := by
  simp [State.member, h]

end Sys2Proof.Machine
end

