-- ==== Sys2Proof/Laws/Frames.lean ====
section
/-! SUPPORT. What the shared operations leave unchanged: one lemma per operation. `LineOnly s t` says that `t` differs from
`s` at most in the LIU, the claim number counter, the command unit and the host link. -/

namespace Sys2Proof.Machine

/-- The state but for the LIU, the claim number counter, the command unit and the host link. -/
structure LineOnly (s t : State) : Prop where
  now : t.now = s.now
  powered : t.powered = s.powered
  directory : t.directory = s.directory
  budget : t.budget = s.budget
  replicas : t.replicas = s.replicas
  transfer : t.transfer = s.transfer
  membership : t.membership = s.membership
  freeCount : t.freeCount = s.freeCount
  pending : t.pending = s.pending
  config : t.host.config = s.host.config
  lastReset : t.lastReset = s.lastReset

namespace LineOnly

theorem refl (s : State) : LineOnly s s := ⟨rfl, rfl, rfl, rfl, rfl, rfl, rfl, rfl, rfl, rfl, rfl⟩

theorem trans {s t u : State} (h : LineOnly s t) (k : LineOnly t u) : LineOnly s u :=
  ⟨k.now.trans h.now, k.powered.trans h.powered, k.directory.trans h.directory, k.budget.trans h.budget,
    k.replicas.trans h.replicas, k.transfer.trans h.transfer, k.membership.trans h.membership,
    k.freeCount.trans h.freeCount, k.pending.trans h.pending, k.config.trans h.config,
    k.lastReset.trans h.lastReset⟩

theorem entry {s t : State} (h : LineOnly s t) (r : Region) : t.entry r = s.entry r := State.entry_congr h.directory r

theorem replica {s t : State} (h : LineOnly s t) (r : Region) : t.replica r = s.replica r :=
  State.replica_congr h.replicas r

theorem station {s t : State} (h : LineOnly s t) : t.station = s.station := by simp [State.station, h.membership]

theorem isSelf {s t : State} (h : LineOnly s t) (x : Station) : t.isSelf x = s.isSelf x := by
  simp [State.isSelf, State.self, h.config]

theorem heldByOwn {s t : State} (h : LineOnly s t) (r : Region) : t.heldByOwn r = s.heldByOwn r := by
  simp only [State.heldByOwn, h.entry, h.isSelf]

theorem claimedByOwn {s t : State} (h : LineOnly s t) (r : Region) : t.claimedByOwn r = s.claimedByOwn r := by
  simp only [State.claimedByOwn, h.entry, h.isSelf]

theorem heldCount {s t : State} (h : LineOnly s t) : t.heldCount = s.heldCount := by
  simp only [State.heldCount]; exact congrArg (List.countP · allRegions) (funext h.heldByOwn)

theorem pendingCount {s t : State} (h : LineOnly s t) : t.pendingCount = s.pendingCount := by
  simp only [State.pendingCount]; exact congrArg (List.countP · allRegions) (funext h.claimedByOwn)

theorem outOfStep {s t : State} (h : LineOnly s t) : t.outOfStep = s.outOfStep := by
  simp only [State.outOfStep, State.staleCount, State.lostCount, h.replica]

theorem budgetRoom {s t : State} (h : LineOnly s t) : t.budgetRoom = s.budgetRoom := by
  unfold State.budgetRoom State.budgetCount
  rw [h.budget, h.now]

end LineOnly

/-! ## The LIU's queues -/

theorem State.cancel_lineOnly (s : State) (q : QueueId) (p : Item → Bool) : LineOnly s (s.cancel q p) :=
  ⟨rfl, rfl, rfl, rfl, rfl, rfl, rfl, rfl, rfl, rfl, rfl⟩

theorem State.withLiu_lineOnly (s : State) (f : Liu → Liu) : LineOnly s (s.withLiu f) :=
  ⟨rfl, rfl, rfl, rfl, rfl, rfl, rfl, rfl, rfl, rfl, rfl⟩

/-- What an orphaning can do: the frames of every queue, their order and their marks stay. -/
theorem Liu.orphanFlight_queue (l : Liu) (q q' : QueueId) (p : Item → Bool) :
    ((l.orphanFlight q p).queue q').map (fun x => (x.item, x.marked)) = (l.queue q').map fun x => (x.item, x.marked) := by
  unfold Liu.orphanFlight
  split
  · rename_i h
    split
    · cases q <;> cases q' <;> simp_all [Liu.setQueue, Liu.queue]
    · rfl
  · rfl

theorem Liu.orphanFlight_transmitter (l : Liu) (q : QueueId) (p : Item → Bool) :
    (l.orphanFlight q p).transmitter = l.transmitter := by
  unfold Liu.orphanFlight
  split
  · split <;> (try cases q) <;> rfl
  · rfl

theorem State.dropFrames_lineOnly (s : State) (p : Item → Bool) : LineOnly s (s.dropFrames p) := s.withLiu_lineOnly _

theorem State.faultHeard_lineOnly (s : State) : LineOnly s s.faultHeard := s.withLiu_lineOnly _

/-- An echo of a job's frame does what the job does, or nothing where the job was dropped (R79, R127). -/
theorem State.jobEchoed_eq (x : Queued) (f : State → State) (s : State) :
    State.jobEchoed x f s = if x.orphan = true then s else f s := rfl

/-- A SNAP part of a station that is not the responder does nothing at an open record (R136). -/
theorem State.partReceived_not_heeded {s : State} {x : Station} {f : PartField} {rec : Reception}
    (h : s.transfer.reception = some rec) (hx : s.isResponder x = false) : s.partReceived .snap x f = (s, []) := by
  simp [State.partReceived, h, State.heeds, hx]

theorem State.append_lineOnly (s : State) (q : QueueId) (i : Item) : LineOnly s (s.append q i) := by
  unfold State.append
  split
  · exact ⟨rfl, rfl, rfl, rfl, rfl, rfl, rfl, rfl, rfl, rfl, rfl⟩
  · exact s.withLiu_lineOnly _

theorem State.placeWaiting_lineOnly (s : State) (q : QueueId) : LineOnly s (s.placeWaiting q) := by
  unfold State.placeWaiting
  split
  · exact .refl s
  · split
    · exact (s.withLiu_lineOnly _).trans (State.append_lineOnly _ _ _)
    · exact .refl s

theorem foldl_lineOnly {α : Type} (f : State → α → State) (h : ∀ s a, LineOnly s (f s a)) (xs : List α) (s : State) :
    LineOnly s (xs.foldl f s) := by
  induction xs generalizing s with
  | nil => exact .refl s
  | cons x xs ih => exact (h s x).trans (ih _)

theorem State.placeAllWaiting_lineOnly (s : State) (q : QueueId) : LineOnly s (s.placeAllWaiting q) :=
  foldl_lineOnly _ (fun s _ => s.placeWaiting_lineOnly q) _ s

theorem State.place_lineOnly (s : State) (q : QueueId) (i : Item) : LineOnly s (s.place q i) := by
  unfold State.place
  refine (s.placeAllWaiting_lineOnly q).trans ?_
  dsimp only
  split
  · exact State.append_lineOnly _ _ _
  · exact State.withLiu_lineOnly _ _

theorem State.raiseObjectionsWithdrawn_lineOnly (s : State) : LineOnly s s.raiseObjectionsWithdrawn :=
  ⟨rfl, rfl, rfl, rfl, rfl, rfl, rfl, rfl, rfl, rfl, rfl⟩

theorem State.placeObject_lineOnly (s : State) (i : Item) : LineOnly s (s.placeObject i) := by
  unfold State.placeObject
  refine (s.placeAllWaiting_lineOnly .reply).trans ?_
  dsimp only
  split
  · exact State.append_lineOnly _ _ _
  · exact State.raiseObjectionsWithdrawn_lineOnly _

theorem State.placeRelease_lineOnly (s : State) (r : Region) (b : Bool) : LineOnly s (s.placeRelease r b) :=
  s.place_lineOnly _ _

/-! ## The command unit -/

theorem State.post_lineOnly (s : State) (c : Completion) : LineOnly s (s.post c) := by
  unfold State.post
  split <;> exact ⟨rfl, rfl, rfl, rfl, rfl, rfl, rfl, rfl, rfl, rfl, rfl⟩

theorem State.endCommand_lineOnly (s : State) (run : Running) (status : Status) (reason : Reason) (v : Version) (n : Nat)
    (p : Int) (f x rel : Bool) : LineOnly s (s.endCommand run status reason v n p f x rel) := s.post_lineOnly _

theorem State.proceed_lineOnly (s : State) (run : Running) (p : Progress) : LineOnly s (s.proceed run p) :=
  ⟨rfl, rfl, rfl, rfl, rfl, rfl, rfl, rfl, rfl, rfl, rfl⟩

theorem State.cancelCommandFrame_lineOnly (s : State) (run : Running) : LineOnly s (s.cancelCommandFrame run) :=
  s.cancel_lineOnly _ _

theorem State.openSetback_lineOnly (s : State) (run : Running) (clock : WaitClock) (reason : Reason) :
    LineOnly s (s.openSetback run clock reason) := by
  unfold State.openSetback
  repeat' split
  all_goals first | exact State.endCommand_lineOnly _ _ _ _ _ _ _ _ _ _ | exact State.proceed_lineOnly _ _ _

theorem State.attemptClaim_lineOnly (s : State) (run : Running) (clock : WaitClock) (before : Reason) :
    LineOnly s (s.attemptClaim run clock before) := by
  unfold State.attemptClaim
  split
  · exact s.openSetback_lineOnly _ _ _
  · split
    · exact s.openSetback_lineOnly _ _ _
    · exact (s.place_lineOnly _ _).trans (State.proceed_lineOnly _ _ _)

theorem State.unit_lineOnly (s : State) (u : CommandUnit) : LineOnly s { s with unit := u } :=
  ⟨rfl, rfl, rfl, rfl, rfl, rfl, rfl, rfl, rfl, rfl, rfl⟩

theorem State.cancelThenEnd_lineOnly (s : State) (run : Running) (status : Status) (reason : Reason) (v : Version)
    (n : Nat) (p : Int) (f x rel : Bool) :
    LineOnly s ((s.cancelCommandFrame run).endCommand run status reason v n p f x rel) :=
  (s.cancelCommandFrame_lineOnly run).trans (State.endCommand_lineOnly _ _ _ _ _ _ _ _ _ _)

theorem State.placeChunk_lineOnly (s : State) (run : Running) (source : Option Region) (done : Nat) (d : Bool) :
    LineOnly s (s.placeChunk run source done d) := by
  unfold State.placeChunk
  exact (s.place_lineOnly _ _).trans (State.proceed_lineOnly _ _ _)

theorem State.noticeContended_lineOnly (s : State) (r : Region) : LineOnly s (s.noticeContended r) := by
  unfold State.noticeContended
  repeat' split
  all_goals first | exact State.openSetback_lineOnly _ _ _ _ | exact .refl s

theorem State.noticeBudgetFull_lineOnly (s : State) (r : Region) : LineOnly s (s.noticeBudgetFull r) := by
  unfold State.noticeBudgetFull
  repeat' split
  all_goals first | exact State.openSetback_lineOnly _ _ _ _ | exact .refl s

theorem State.noticeClaimPending_lineOnly (s : State) (r : Region) : LineOnly s (s.noticeClaimPending r) := by
  unfold State.noticeClaimPending
  repeat' split
  all_goals first | exact State.proceed_lineOnly _ _ _ | exact .refl s

theorem State.noticeObjected_lineOnly (s : State) (r : Region) (reason : ObjectReason) :
    LineOnly s (s.noticeObjected r reason) := by
  unfold State.noticeObjected
  repeat' split
  all_goals first | exact State.openSetback_lineOnly _ _ _ _ | exact .refl s

theorem State.noticeConfirmed_lineOnly (s : State) (r : Region) (v : Version) : LineOnly s (s.noticeConfirmed r v) := by
  unfold State.noticeConfirmed
  repeat' split
  all_goals
    first
    | exact (s.placeRelease_lineOnly _ _).trans (State.endCommand_lineOnly _ _ _ _ _ _ _ _ _ _)
    | exact State.endCommand_lineOnly _ _ _ _ _ _ _ _ _ _
    | exact .refl s

theorem State.noticeRegionNotCurrent_lineOnly (s : State) (r : Region) : LineOnly s (s.noticeRegionNotCurrent r) := by
  unfold State.noticeRegionNotCurrent
  repeat' split
  all_goals
    first
    | exact s.cancelThenEnd_lineOnly _ _ _ _ _ _ _ _ _
    | exact State.endCommand_lineOnly _ _ _ _ _ _ _ _ _ _
    | exact .refl s

theorem State.noticeUpdateApplied_lineOnly (s : State) (r : Region) (x : Station) :
    LineOnly s (s.noticeUpdateApplied r x) := by
  unfold State.noticeUpdateApplied
  repeat' split
  all_goals first | exact State.proceed_lineOnly _ _ _ | exact .refl s

theorem State.noticeLeftMember_lineOnly (s : State) : LineOnly s s.noticeLeftMember := by
  unfold State.noticeLeftMember
  repeat' split
  all_goals first | exact State.endCommand_lineOnly _ _ _ _ _ _ _ _ _ _ | exact .refl s

theorem State.noticeLapsed_lineOnly (s : State) (r : Region) : LineOnly s (s.noticeLapsed r) := by
  unfold State.noticeLapsed
  repeat' split
  all_goals first | exact State.endCommand_lineOnly _ _ _ _ _ _ _ _ _ _ | exact .refl s

theorem State.noticeNoLongerHeld_lineOnly (s : State) (r : Region) (c : HoldingEnd) :
    LineOnly s (s.noticeNoLongerHeld r c) := by
  unfold State.noticeNoLongerHeld
  repeat' split
  all_goals first | exact State.endCommand_lineOnly _ _ _ _ _ _ _ _ _ _ | exact .refl s

theorem State.noticeUpdateRefused_lineOnly (s : State) (r x : Region) : LineOnly s (s.noticeUpdateRefused r x) := by
  unfold State.noticeUpdateRefused
  repeat' split
  all_goals first | exact State.endCommand_lineOnly _ _ _ _ _ _ _ _ _ _ | exact .refl s

theorem State.updateEchoed_lineOnly (s : State) (u : Update) : LineOnly s (s.updateEchoed u) := by
  unfold State.updateEchoed
  repeat' (first | split | dsimp only)
  all_goals
    first
    | exact State.endCommand_lineOnly _ _ _ _ _ _ _ _ _ _
    | exact State.placeChunk_lineOnly _ _ _ _ _
    | exact .refl s

theorem State.renewEchoed_lineOnly (s : State) (r : Region) : LineOnly s (s.renewEchoed r) := by
  unfold State.renewEchoed
  split
  · split
    · split
      · exact State.endCommand_lineOnly _ _ _ _ _ _ _ _ _ _
      · exact .refl s
    · exact .refl s
  · exact .refl s

theorem State.commandEndWithoutArrival_lineOnly (s : State) (run : Running) :
    LineOnly s (s.commandEndWithoutArrival run) := by
  unfold State.commandEndWithoutArrival
  repeat' split
  all_goals first | exact s.cancelThenEnd_lineOnly _ _ _ _ _ _ _ _ _ | exact .refl s

theorem State.abortRunning_lineOnly (s : State) : LineOnly s s.abortRunning := by
  unfold State.abortRunning
  repeat' split
  all_goals
    first
    | exact s.cancelThenEnd_lineOnly _ _ _ _ _ _ _ _ _
    | exact State.endCommand_lineOnly _ _ _ _ _ _ _ _ _ _
    | exact s.unit_lineOnly _

theorem State.retryOpen_lineOnly (s before : State) : LineOnly s (s.retryOpen before) := by
  unfold State.retryOpen
  repeat' split
  all_goals
    first
    | exact State.attemptClaim_lineOnly _ _ _ _
    | exact State.endCommand_lineOnly _ _ _ _ _ _ _ _ _ _
    | exact .refl s

/-! ## What concludes an event -/

/-- Outside LEAVING no departure ends (R112). -/
theorem State.endReleases_of_not_leaving {s : State} (h : s.station ≠ .leaving) : s.endReleases = s := by
  simp [State.endReleases, h]

theorem State.requestResync_of_sum {s before : State} {n : Nat} (h : s.outOfStep ≤ n) : s.requestResync before n = s := by
  simp [State.requestResync, show ¬ n < s.outOfStep by omega]

/-- Outside LEAVING, an event that puts no further region out of step concludes with the command unit alone. -/
theorem State.conclude_lineOnly {s before : State} (hs : s.station ≠ .leaving) (ho : s.outOfStep ≤ before.outOfStep) :
    LineOnly s (s.conclude before) := by
  rw [State.conclude, State.concludeFrom, State.requestResync_of_sum ho]
  have k := s.retryOpen_lineOnly before
  rw [State.endReleases_of_not_leaving (by rw [k.station]; exact hs)]
  exact k

end Sys2Proof.Machine
end

