-- ==== Sys2Proof/Laws/Line.lean ====
section
/-! SUPPORT. What the read-back, the jam and the receiver's commands can give (R138, R139, R150). -/

namespace Sys2Proof

open Sys2Proof.Machine

/-! ## The read-back (R150) -/

@[simp] theorem firstMismatch_nil_driven (line : List Level) : firstMismatch [] line = none := rfl

@[simp] theorem firstMismatch_nil_line (own : List Level) : firstMismatch own [] = none := by cases own <;> rfl

@[simp] theorem firstMismatch_self (own : List Level) : firstMismatch own own = none := by
  induction own with
  | nil => rfl
  | cons sent own ih => simp [firstMismatch, ih]

/-- No mismatch: the line reads as driven as far as both go. -/
theorem firstMismatch_eq_none_iff {own line : List Level} :
    firstMismatch own line = none ↔ own.take line.length = line.take own.length := by
  induction own generalizing line with
  | nil => simp
  | cons sent own ih =>
    cases line with
    | nil => simp
    | cons read line => by_cases h : sent = read <;> simp [firstMismatch, h, ih]

/-- The first mismatch: all half-bits before it read as driven, and this one does not. -/
theorem firstMismatch_eq_some_iff {own heard : List Level} {n : Nat} :
    firstMismatch own heard = some n ↔
      own.take n = heard.take n ∧ ∃ sent read, own[n]? = some sent ∧ heard[n]? = some read ∧ sent ≠ read := by
  induction own generalizing heard n with
  | nil => simp
  | cons sent own ih =>
    cases heard with
    | nil => simp
    | cons read heard =>
      by_cases h : sent = read
      · cases n <;> simp [firstMismatch, h, ih]
      · cases n <;> simp [firstMismatch, h]

/-! ## Lengths and times (R138; 7.10) -/

@[simp] theorem jam_length : jam.length = 32 := by simp [jam]

@[simp] theorem halfBitsTime_jam : halfBitsTime jam.length = 2000 := by simp [halfBitsTime, Config.bitTime]

theorem length_bitsOf (bs : List Byte) : (bitsOf bs).length = 8 * bs.length := by
  induction bs with
  | nil => rfl
  | cons b bs ih => simp only [bitsOf, List.flatMap_cons, List.length_append, byteBits] at ih ⊢; simp [ih]; omega

theorem length_flatMap_bitLevels (bits : List Bool) : (bits.flatMap bitLevels).length = 2 * bits.length := by
  induction bits with
  | nil => rfl
  | cons b bits ih => cases b <;> simp [bitLevels, ih] <;> omega

/-- Start mark, header, payload and CRC, 16 half-bits a byte. -/
theorem transmission_length (x : Station) (f : Frame) :
    (transmission x f).length = 16 * (5 + f.payload.length) := by
  rw [transmission, length_flatMap_bitLevels, length_bitsOf]
  simp only [frameBytes, frameBody, bytes16, List.length_cons, List.length_append, List.length_nil]
  omega

/-- The half-bits of a frame take its time on the line. -/
theorem halfBitsTime_transmission (x : Station) (f : Frame) :
    halfBitsTime (transmission x f).length = f.lineTime := by
  rw [transmission_length]
  show (16 * (5 + f.payload.length) * 125 / 2 : Nat) = 1000 * (4 + f.payload.length + 1)
  omega

/-! ## The commands of a run of activity -/

/-- The arrival that the receiver hands over carries the frame and its sender. -/
@[simp] theorem arrivingFrame_arrivalCommand (t : Time) (x : Station) (f : Frame) :
    (arrivalCommand t x f).arrivingFrame = some (x, f) := by cases f <;> rfl

/-! ## The jam's end (R150) -/

namespace Machine

/-- While the jam's time runs, JAM_END leaves the station as it is. -/
theorem State.endJam_early {s : State} {ends : Time} (h : s.liu.transmitter = .jamming ends) (before : s.now < ends) :
    s.endJam = s := by
  simp [State.endJam, h, Nat.not_le.mpr before]

/-- Once the jam's time is over, JAM_END turns the driver off. -/
theorem State.endJam_due {s : State} {ends : Time} (h : s.liu.transmitter = .jamming ends) (due : ends ≤ s.now) :
    s.endJam = s.withLiu fun l => { l with
      transmitter := .off, fallback := true, activityEnd := max l.activityEnd ends,
      collisionEnd := some (max l.activityEnd ends) } := by
  simp [State.endJam, h, due]

/-- JAM_END ends nothing where no jam was begun. -/
theorem State.endJam_other {s : State} (h : ∀ ends, s.liu.transmitter ≠ .jamming ends) : s.endJam = s := by
  unfold State.endJam
  split
  · exact absurd ‹_› (h _)
  · rfl
  · rfl

end Machine

end Sys2Proof
end

