-- ==== Sys2Proof/Laws/Memory.lean ====
section
/-! SUPPORT. The bytes of a region: a read after a write, and that every memory operation keeps the canonical form. -/

namespace Sys2Proof.Machine

/-- Every offset of a canonical memory lies above a bound that its first offset lies above. -/
def startsAbove (a : Nat) : Memory → Prop
  | [] => True
  | (k, _) :: _ => a < k

theorem Memory.wf_cons {k : Nat} {b : Byte} {m : Memory} :
    Memory.wf ((k, b) :: m) = true ↔ k < 256 ∧ b ≠ 0 ∧ startsAbove k m ∧ Memory.wf m = true := by
  cases m with
  | nil => simp [Memory.wf, startsAbove]
  | cons c rest =>
    obtain ⟨k', b'⟩ := c
    have bound : Memory.wf ((k', b') :: rest) = true → k' < 256 := by
      induction rest generalizing k' b' with
      | nil => simp +contextual [Memory.wf]
      | cons c rest ih => obtain ⟨k'', b''⟩ := c; simp only [Memory.wf, Bool.and_eq_true, decide_eq_true_eq]
                          intro h; have := ih k'' b'' h.2; omega
    simp only [Memory.wf, startsAbove, Bool.and_eq_true, decide_eq_true_eq, bne_iff_ne]
    constructor
    · rintro ⟨⟨h1, h2⟩, h3⟩; exact ⟨by have := bound h3; omega, h2, h1, h3⟩
    · rintro ⟨_, h2, h1, h3⟩; exact ⟨⟨h1, h2⟩, h3⟩

theorem startsAbove_writeByte {a k : Nat} {b : Byte} {m : Memory} (h : startsAbove k m) (hk : k < a) :
    startsAbove k (writeByte m a b) ∨ writeByte m a b = [] ∨ ∃ c rest, m = c :: rest ∧ writeByte m a b = rest := by
  cases m with
  | nil => simp only [writeByte]; split <;> simp [startsAbove, hk]
  | cons c rest =>
    obtain ⟨k', b'⟩ := c
    simp only [startsAbove] at h
    simp only [writeByte]
    split
    · split <;> simp [startsAbove, h, hk]
    · split
      · split
        · exact .inr (.inr ⟨_, _, rfl, rfl⟩)
        · simp [startsAbove, hk]
      · simp [startsAbove, h]

theorem startsAbove_of_wf_cons {k : Nat} {c : Host.Cell} {m : Memory} (h : Memory.wf (c :: m) = true)
    (hk : k < c.1) : startsAbove k m := by
  obtain ⟨k', b'⟩ := c
  rw [Memory.wf_cons] at h
  cases m with
  | nil => trivial
  | cons d rest => obtain ⟨k'', b''⟩ := d; simp only [startsAbove] at h ⊢; simp only at hk; omega

/-- Writing a byte within the region keeps the canonical form. -/
theorem writeByte_wf {m : Memory} {a : Nat} {b : Byte} (h : Memory.wf m = true) (ha : a < 256) :
    Memory.wf (writeByte m a b) = true := by
  induction m with
  | nil => simp only [writeByte]; split <;> simp_all [Memory.wf]
  | cons c rest ih =>
    obtain ⟨k, v⟩ := c
    have h' := Memory.wf_cons.mp h
    simp only [writeByte]
    split
    · split
      · exact h
      · exact Memory.wf_cons.mpr ⟨ha, ‹_›, ‹_›, h⟩
    · split
      · split
        · exact h'.2.2.2
        · next e _ => exact Memory.wf_cons.mpr ⟨ha, ‹_›, e ▸ h'.2.2.1, h'.2.2.2⟩
      · refine Memory.wf_cons.mpr ⟨h'.1, h'.2.1, ?_, ih h'.2.2.2⟩
        rcases startsAbove_writeByte (b := b) h'.2.2.1 (by omega : k < a) with h1 | h1 | ⟨c, r, e, h1⟩
        · exact h1
        · rw [h1]; trivial
        · rw [h1]; subst e
          have := h'.2.2.1
          exact startsAbove_of_wf_cons h'.2.2.2 this

/-- A byte that stands below every listed offset reads 0. -/
theorem readByte_below {k : Nat} {m : Memory} (h : startsAbove k m) (hm : Memory.wf m = true) {a : Nat} (ha : a ≤ k) :
    readByte m a = 0 := by
  induction m generalizing k with
  | nil => rfl
  | cons c rest ih =>
    obtain ⟨k', b⟩ := c
    have h' := Memory.wf_cons.mp hm
    simp only [startsAbove] at h
    rw [readByte, if_neg (by omega)]
    exact ih h'.2.2.1 h'.2.2.2 (by omega)

/-- A read after a write: the byte written, and every other byte as before. -/
theorem readByte_writeByte {m : Memory} (h : Memory.wf m = true) (a : Nat) (b : Byte) (x : Nat) :
    readByte (writeByte m a b) x = if x = a then b else readByte m x := by
  induction m with
  | nil =>
    by_cases hb : b = 0
    · simp [writeByte, readByte, hb]
    · rw [writeByte, if_neg hb]
      by_cases hx : x = a
      · simp [readByte, hx]
      · simp [readByte, hx, Ne.symm hx]
  | cons c rest ih =>
    obtain ⟨k, v⟩ := c
    have h' := Memory.wf_cons.mp h
    have below : ∀ x, x ≤ k → readByte rest x = 0 := fun x hx => readByte_below h'.2.2.1 h'.2.2.2 hx
    simp only [writeByte]
    by_cases h1 : a < k
    · by_cases hb : b = 0
      · simp only [h1, hb, if_true]
        by_cases hx : x = a
        · simp [readByte, hx, below a (by omega), show ¬ k = a by omega]
        · simp [hx]
      · simp only [h1, hb, if_true, if_false]
        rw [readByte]
        by_cases hx : x = a
        · simp [hx]
        · rw [if_neg (fun e => hx e.symm), if_neg hx]
    · by_cases h2 : a = k
      · subst h2
        by_cases hb : b = 0
        · simp only [h1, hb, if_true, if_false]
          by_cases hx : x = a
          · simp [hx, below a le_rfl]
          · simp [readByte, hx, Ne.symm hx]
        · simp only [h1, hb, if_true, if_false]
          by_cases hx : x = a
          · simp [readByte, hx]
          · simp [readByte, hx, Ne.symm hx]
      · simp only [h1, h2, if_false]
        rw [readByte, ih h'.2.2.2, readByte]
        by_cases hx : x = a
        · simp [hx, show ¬ k = a by omega]
        · simp [hx]

theorem writeBytes_wf {bs : List Byte} {m : Memory} {a : Nat} (h : Memory.wf m = true) (ha : a + bs.length ≤ 256) :
    Memory.wf (writeBytes m a bs) = true := by
  induction bs generalizing m a with
  | nil => exact h
  | cons b bs ih =>
    simp only [List.length_cons] at ha
    exact ih (writeByte_wf h (by omega)) (by omega)

theorem readByte_writeBytes {bs : List Byte} {m : Memory} {a : Nat} (h : Memory.wf m = true) (ha : a + bs.length ≤ 256)
    (x : Nat) :
    readByte (writeBytes m a bs) x = if a ≤ x ∧ x < a + bs.length then bs.getD (x - a) 0 else readByte m x := by
  induction bs generalizing m a with
  | nil => simp [writeBytes]
  | cons b bs ih =>
    simp only [List.length_cons] at ha
    rw [writeBytes, ih (writeByte_wf h (by omega)) (by omega), readByte_writeByte h]
    simp only [List.length_cons]
    by_cases hx : x = a
    · subst hx; simp
    · by_cases h1 : a ≤ x ∧ x < a + (bs.length + 1)
      · obtain ⟨n, hn⟩ : ∃ n, x - a = n + 1 := ⟨x - a - 1, by omega⟩
        rw [if_pos (by omega), if_pos h1, hn, show x - (a + 1) = n by omega, List.getD_cons_succ]
      · rw [if_neg (by omega), if_neg h1, if_neg hx]

theorem writeSelected_wf {mask : Option (BitVec 32)} {a : Nat} {bs : List Byte} {m : Memory} {i : Nat}
    (h : Memory.wf m = true) (ha : a + i + bs.length ≤ 256) : Memory.wf (writeSelected mask a m i bs) = true := by
  induction bs generalizing m i with
  | nil => exact h
  | cons b bs ih =>
    simp only [List.length_cons] at ha
    rw [writeSelected]
    apply ih _ (by omega)
    split
    · exact writeByte_wf h (by omega)
    · exact h

/-- The bytes of a masked write: byte i of the data where the mask selects it, every other byte as before (R55, R60). -/
theorem readByte_writeSelected {mask : Option (BitVec 32)} {a : Nat} {bs : List Byte} {m : Memory} {i : Nat}
    (h : Memory.wf m = true) (ha : a + i + bs.length ≤ 256) (x : Nat) :
    readByte (writeSelected mask a m i bs) x =
      if a + i ≤ x ∧ x < a + i + bs.length ∧ maskSelects mask (x - a) = true then bs.getD (x - a - i) 0
      else readByte m x := by
  induction bs generalizing m i with
  | nil => simp [writeSelected]; intro h1 h2; omega
  | cons b bs ih =>
    simp only [List.length_cons] at ha
    have hw : Memory.wf (if maskSelects mask i then writeByte m (a + i) b else m) = true := by
      split
      · exact writeByte_wf h (by omega)
      · exact h
    rw [writeSelected, ih hw (by omega)]
    simp only [List.length_cons]
    by_cases hx : x = a + i
    · subst hx
      rw [if_neg (by omega)]
      have e : a + i - a = i := by omega
      by_cases hs : maskSelects mask i = true
      · rw [if_pos hs, readByte_writeByte h, if_pos rfl, if_pos ⟨le_rfl, by omega, by rw [e]; exact hs⟩]
        simp [e]
      · rw [if_neg hs, if_neg (by rw [e]; exact fun h => hs h.2.2)]
    · have keep : readByte (if maskSelects mask i then writeByte m (a + i) b else m) x = readByte m x := by
        split
        · rw [readByte_writeByte h, if_neg hx]
        · rfl
      by_cases h1 : a + (i + 1) ≤ x ∧ x < a + (i + 1) + bs.length ∧ maskSelects mask (x - a) = true
      · obtain ⟨n, hn⟩ : ∃ n, x - a - i = n + 1 := ⟨x - a - i - 1, by omega⟩
        rw [if_pos h1, if_pos ⟨by omega, by omega, h1.2.2⟩, hn, show x - a - (i + 1) = n by omega,
          List.getD_cons_succ]
      · rw [if_neg h1, keep, if_neg]
        rintro ⟨h2, h3, h4⟩
        exact h1 ⟨by omega, by omega, h4⟩

/-- An UPDATE within the region keeps the canonical form of the replica (R60). -/
theorem Replica.applied_wf {rep : Replica} {u : Update} (h : Memory.wf rep.content = true)
    (hu : u.offset.toNat + u.data.length ≤ 256) : Memory.wf (rep.applied u).content = true :=
  writeSelected_wf h (by omega)

theorem readBytes_length (m : Memory) (a n : Nat) : (readBytes m a n).length = n := by simp [readBytes]

theorem readBytes_getD (m : Memory) {a n i : Nat} (h : i < n) : (readBytes m a n).getD i 0 = readByte m (a + i) := by
  simp [readBytes, List.getD, h]

end Sys2Proof.Machine
end

