-- ==== Sys2Proof/Tests/Slice0.lean ====
section
/-! SUPPORT. Smoke tests of the form checks, the worked examples of the manual, and for each statement with hypotheses a
witness: concrete states and operands that meet them. -/

namespace Sys2Proof.Tests

open Sys2Proof Sys2Proof.Machine

/-! ## Form checks: one ill-formed term each (R141, R202; 10.7) -/

def upd (offset : Byte) (data : List Byte) : Update :=
  { region := 5, version := 1, offset := offset, mask := none, closeAfter := false, data := data }

theorem test_update_needs_a_byte : (Instr.updateArrival 0 7 (upd 0 [])).wellFormed = false := by decide
theorem test_update_takes_at_most_32 : (Instr.updateArrival 0 7 (upd 0 (List.replicate 33 1))).wellFormed = false := by
  decide
theorem test_update_stays_in_its_region : (Instr.updateArrival 0 7 (upd 255 [1, 2])).wellFormed = false := by decide
theorem test_update_may_end_at_256 : (Instr.updateArrival 0 7 (upd 254 [1, 2])).wellFormed = true := by decide
theorem test_held_count_over_64 : (Instr.presenceArrival 0 7 .member 65).wellFormed = false := by decide
theorem test_claimed_objection_over_255 :
    (Instr.objectArrival 0 7 { station := 2, number := 1 } 5 .claimed 7 256).wellFormed = false := by decide
theorem test_part_needs_32_bytes :
    (Instr.snapArrival 0 7 { peer := 3, region := 5, version := 1, part := 0, data := [1] }).wellFormed = false := by
  decide
theorem test_dir_needs_eight_entries : (Instr.dirArrival 0 7 3 0 []).wellFormed = false := by decide
theorem test_settling_dir_entry_needs_a_last_owner :
    (Instr.dirArrival 0 7 3 0 (List.replicate 8 { shown := .settling, lastOwner := none, version := 0 })).wellFormed =
      false := by decide
theorem test_record_of_14_bytes : (Instr.putCommand 0 (List.replicate 14 1)).wellFormed = false := by decide
theorem test_write_record_needs_its_data : (Instr.putCommand 0 [5, 4, 3, 2, 0, 3, 0, 0, 0, 0, 0, 0, 0, 0, 0]).wellFormed =
    false := by decide
theorem test_assigned_code_is_not_unassigned : (Instr.unassignedTransaction 0 13).wellFormed = false := by decide
theorem test_activity_ends_after_it_begins : (Instr.lineActivityDeferral 5 4).wellFormed = false := by decide

/-! ## The line: CRC, layouts, times, ranks -/

/-- The check value of this CRC for the ASCII digits 1 to 9, from the literature: 29B1 hexadecimal (R140). -/
theorem test_crc_of_the_digits : crc [0x31, 0x32, 0x33, 0x34, 0x35, 0x36, 0x37, 0x38, 0x39] = 0x29B1 := by
  decide +kernel

/-- The layouts of 7.2, written out: header 4 bits kind and 4 bits sender, length, then the payload. -/
theorem test_claim_bytes : frameBody 9 (.claim 40 7) = [0x19, 2, 40, 7] := by decide
theorem test_object_bytes :
    frameBody 4 (.object { station := 6, number := 250 } 63 .settling 4 0x1234) = [0x24, 6, 0x64, 250, 63, 1, 0x12, 0x34] := by
  decide
theorem test_update_bytes :
    frameBody 15 (.update
      { region := 1, version := 0xABCD, offset := 16, mask := some 0x80000001, closeAfter := true, data := [0xEE, 0xFF] }) =
    [0x3F, 11, 1, 0xAB, 0xCD, 16, 0xC2, 0x80, 0, 0, 1, 0xEE, 0xFF] := by decide
theorem test_dir_entry_bytes :
    DirField.bytes { shown := .held 11, lastOwner := some 2, version := 0x0102 } = [0xAB, 0, 2, 1, 2] := by decide

/-- A RENEW of region 0 from station 5 is read from its bytes, and refused with one bit inverted (R139 to R141). -/
theorem test_renew_is_read : readFrame (frameBytes 5 (.renew 0)) = some (5, .renew 0) := by decide +kernel
theorem test_inverted_bit_is_a_fault : readFrame [0x45, 1, 1, 0, 0] = none := by decide +kernel

/-- The start mark 10101011 on the line: a one is A then B, a zero B then A (R138). -/
theorem test_start_mark_levels : (transmission 3 .leave).take 16 =
    [.a, .b, .b, .a, .a, .b, .b, .a, .a, .b, .b, .a, .a, .b, .a, .b] := by decide +kernel

/-- The frame times of 7.10. -/
theorem test_frame_times :
    Frame.joinReq.lineTime = 5000 ∧ (Frame.presence .member 0).lineTime = 7000 ∧ (Frame.release 0 0).lineTime = 8000 ∧
      (Frame.update (upd 0 (List.replicate 32 1))).lineTime = 42000 := by decide

/-- The example of 7.11: the CLAIM of station 3 and the UPDATE of station 9 first differ at bit 5 of the header's first byte, and
what a jam leaves of the CLAIM is faulty (R139, R150). -/
theorem test_first_mismatch :
    firstMismatch (transmission 3 (.claim 7 1)) (transmission 9 (.update (upd 0 (List.replicate 8 1)))) = some (16 + 4) ∧
      receive (drivenThrough (transmission 3 (.claim 7 1)) (transmission 9 (.update (upd 0 (List.replicate 8 1))))) = none := by
  decide +kernel

/-- A RENEW takes 6 µs on the line (7.10), and activity of one bit time after its CRC does not put its arrival off (R139). -/
theorem test_arrival_at_the_crc :
    receivedCommands 1000000000 (transmission 5 (.renew 0) ++ [.a, .b]) =
      [.renewArrival 1000006000 5 0, .lineActivityDeferral 1000006000 1000006125] := by decide +kernel

/-! ## A member station -/

/-- Station 3, with a 20 ms lease, an open wait limit of 10 ms and both notify bits, MEMBER alone at 1 s. -/
def member : State :=
  { State.resetAt 1000000000 with
    directory := Vector.replicate 64 Entry.fresh
    replicas := Vector.replicate 64 { Replica.reset with condition := .current }
    membership := { Membership.reset with station := .member }
    host := { HostLink.reset with
      config := some { station := 3, leaseCode := 0, openWaitLimit := 10, notifyChanges := true, notifyState := true } } }

/-- The same station in another state. -/
def inState (st : StationState) : State := { member with membership := { member.membership with station := st } }

/-- Region `r` in a directory state. -/
def withEntry (s : State) (r : Region) (st : EntryState) (last : Option Station := none) : State :=
  s.setEntry r { state := st, lastOwner := last, overheard := none }

def withCondition (s : State) (r : Region) (c : Condition) : State := s.setReplica r { s.replica r with condition := c }

/-- The state after a command. -/
def after (c : Instr) (s : State) : State :=
  match exec c s with
  | .next s' => s'
  | .fault _ | .refused _ => s

/-- A command record of this kind for region 5, with these fields. -/
def record (kind region offset : Byte) (length : BitVec 16) (flags : Byte := 0) : CommandRecord :=
  { tag := 9, kind := kind, region := region, offset := offset, length := length, flags := flags, secondRegion := region,
    secondOffset := 0, value := 0x80, matchMask := 0x80, mask := 0, data := [1, 2, 3] }

/-- The station with this record at the head of its command queue. -/
def withRecord (s : State) (c : CommandRecord) (cancelled : Bool := false) : State :=
  { s with host := { s.host with commandQueue := [{ record := c, cancelled := cancelled }] } }

/-- The example of 7.11: with last sender 5 and the flag clear, station 9 ranks 3; by the flag, station 3 ranks 3. -/
theorem test_ranks : State.rank { member with liu := { member.liu with fallback := false, lastSender := some 5 } } 9 = 3 ∧
    State.rank member 3 = 3 ∧ member.accessAt 3 = 1000000000 + 4500 := by decide

/-- Its collision: the CLAIM stays at the head, the failure is counted, the jam's end sets the flag. -/
theorem test_collision_keeps_the_claim :
    (after (.jamEnd 1000007000) (after (.collision 1000005000) { member with liu := { member.liu with
      transmitter := .sending .originated (.claim 7 1)
      originated := [{ item := .claim 7 (some 1), marked := false }] } })).liu =
    { member.liu with
      collisionEnd := some 1000007000, activityEnd := 1000007000, failures := 1
      originated := [{ item := .claim 7 (some 1), marked := false }] } := by
  decide

/-- The jam lasts 2 µs: 1 µs after the collision a JAM_END leaves it as it is (R150). -/
theorem test_jam_lasts_two_microseconds :
    let s := after (.collision 1000005000) { member with liu := { member.liu with
      transmitter := .sending .originated (.claim 7 1)
      originated := [{ item := .claim 7 (some 1), marked := false }] } }
    s.liu.transmitter = .jamming 1000007000 ∧ (after (.jamEnd 1000006000) s).liu = s.liu := by decide

/-- The last jam goes on for 1 µs after this station's own: its end is no frame error, and the end of noise 0.2 µs later is one,
as is that of noise after a jam that was the last itself (R143, R150). -/
theorem test_own_collision_is_no_frame_error :
    let s := after (.jamEnd 1000006000) { member with liu := { member.liu with transmitter := .jamming 1000006000 } }
    let long := after (.lineActivityDeferral 1000006000 1000007000) s
    let errors (s : State) := s.host.counters.frameErrors
    (errors (after (.faultyFrameEnd 1000007000) long), errors (after (.faultyFrameEnd 1000007200) long),
      errors (after (.faultyFrameEnd 1000007200) (after (.faultyFrameEnd 1000007000) long)),
      errors (after (.faultyFrameEnd 1000006000) s), errors (after (.faultyFrameEnd 1000006200) s)) = (0, 1, 1, 0, 1) := by
  decide

/-- A SYNC-END in flight at the entry into JOINING: its echo sets the gap deadline while there is no responder (R124). -/
theorem test_own_sync_frame_qualifies :
    let rec' : JoinRecord := { attempt := 1, responder := none, runSet := [], gap := none, renewal := none }
    let s := { member with
      membership := { member.membership with station := .joining, join := some rec' }
      liu := { member.liu with
        transmitter := .sending .reply (.syncEnd 9)
        reply := [{ item := .syncEnd 9, marked := true, orphan := true }] } }
    (after (.syncEndArrival 1000003000 3 9) s).membership.join.map (·.gap) = some (some 1005003000) := by decide

/-- Station 7, silent for 30 ms, is ABSENT, and its next good frame restores it. A station isolated at 1 s is silent to 1.05 s and
listens to 1.075 s (R106). -/
theorem test_absence_and_isolation :
    let s := member.setMember 7 { presence := .member, lastHeard := some 970000000, absence := some 1000000000 }
    let gone := after (.absenceDeadlineExpiry 1000000000 7) s
    let m (s : State) := (s.station, s.membership.isolationTimer, s.membership.listenTimer)
    (gone.member 7).presence = .absent ∧ ((after (.renewArrival 1000100000 7 5) gone).member 7).presence = .member ∧
      m member.enterIsolated = (.isolated, some 1050000000, none) ∧
      m (after (.isolationTimerExpiry 1050000000) member.enterIsolated) = (.listening, none, some 1075000000) := by
  decide +kernel

/-! ## The host's bytes (10.7) -/

/-- The taking points: after byte 0, or after the bytes that the table of 10.7 counts; a WRITE record of length 2 ends at its
17th byte. -/
theorem test_taking_points :
    takingRow 9 [2] = some (.status 9) ∧ takingRow 9 [2, 0] = none ∧ takingRow 9 [4] = some (.getCompletion 9) ∧
      takingRow 9 [1, 3, 0, 5] = none ∧ takingRow 9 [1, 3, 0, 5, 2] = some (.configure 9 3 0 5 2) ∧
      takingRow 9 [5, 40, 8, 1, 0] = some (.readImage 9 40 8 256) ∧ takingRow 9 [6, 40] = some (.readRegion 9 40) ∧
      takingRow 9 [7] = some (.takeChanges 9) ∧ takingRow 9 [8] = some (.abort 9) ∧ takingRow 9 [9] = some (.abortAll 9) ∧
      takingRow 9 [10] = some (.attach 9) ∧ takingRow 9 [11] = some (.detach 9) ∧ takingRow 9 [12] = some (.resync 9) ∧
      takingRow 9 [13] = none ∧ takingRow 9 [13, 1] = some (.readCounters 9 1) ∧
      takingRow 9 [14] = some (.unassignedTransaction 9 14) ∧ takingRow 9 [0] = some (.unassignedTransaction 9 0) ∧
      (let write : List Byte := [7, 4, 5, 0, 0, 2, 0, 0, 0, 0, 0, 0, 0, 0, 0, 1]
       takingRow 9 (3 :: write) = none ∧ takingRow 9 (3 :: write ++ [2]) = some (.putCommand 9 (write ++ [2]))) := by decide

/-- The completion points: the 10th byte returned by a STATUS, the count of a TAKE-CHANGES on an empty change set, the 12th
counter byte; SDO is driven while the transaction is open. -/
theorem test_completion_points :
    let s := after (.status 0) member
    s.hostRow 1000000000 9 (2 :: List.replicate 10 0) = some (.statusCompletionPoint 9) ∧
      s.hostRow 1000000000 9 (2 :: List.replicate 9 0) = none ∧ s.hostRow 1000000000 9 (2 :: List.replicate 11 0) = none ∧ s.sdoByte 0 = some 3 ∧ s.sdoByte 10 = some 0 ∧
      (after (.takeChanges 0) member).hostRow 1000000000 9 [7, 0] = some (.takeChangesCompletionPoint 9) ∧
      (after (.readCounters 0 1) member).hostRow 1000000000 9 (13 :: 1 :: List.replicate 12 0) = some (.readCountersCompletionPoint 9) ∧
      (after (.transactionEnd 0) s).sdoByte 0 = none := by decide

/-- A reset in mid-transaction: the last byte of a CONFIGURE that began before it takes nothing, that of one that began after
it does (R197). SDO shifts the link byte, and from the taking point on the answer. -/
theorem test_reset_ends_the_transaction :
    let s := after (.nreset 1000000500) member
    s.hostRow 1000000400 1000000600 [1, 3, 0, 5, 2] = none ∧
      s.hostRow 1000000500 1000000600 [1, 3, 0, 5, 2] = some (.configure 1000000600 3 0 5 2) ∧ s.sdoShifted 1000000500 [] = 0 ∧
      (after (.configure 1000000600 3 51 0 2) s).sdoShifted 1000000500 [1, 3, 51, 0, 2] = 5 := by decide

/-! ## Worked sequences -/

/-- 10.9: of 3, 17 and 40 taken, 17 changes again and 52 joins; the completion point leaves 17 and 52. -/
theorem test_take_changes :
    (after (.takeChangesCompletionPoint 0)
      ((after (.takeChanges 0) (member.addChanges [40, 3, 17])).addChanges [17, 52])).host.changeSet = [17, 52] := by decide

/-- 9.9: the ascending overlapping COPY repeats the first four bytes, the descending one moves them. -/
theorem test_overlapping_copies :
    let c := { record 6 7 4 12 with secondOffset := 0 }
    let m := writeBytes [] 0 [65, 66, 67, 68, 69, 70, 71, 72, 73, 74, 75, 76, 77, 78, 79, 80]
    readBytes (copyInChunks c 7 256 0 m) 0 16 = [65, 66, 67, 68, 65, 66, 67, 68, 65, 66, 67, 68, 65, 66, 67, 68] ∧
      readBytes (copyInChunks { c with flags := 8 } 7 256 0 m) 0 16 =
        [65, 66, 67, 68, 65, 66, 67, 68, 69, 70, 71, 72, 73, 74, 75, 76] := by decide

/-- 9.10: the UPDATE between groups puts the match at offset 18, with 5 bytes unexamined, DISTURBED yes, version 701. -/
theorem test_disturbed_scan :
    let s := withEntry member 20 (.held 9 2000000000 .notOwn)
    let s := s.setReplica 20 { condition := .current, version := 700, content := [(21, 0x80)], attempts := 0 }
    let s := after (.scanGroup 0) (after (.scan 0) (withRecord s (record 8 20 0 24)))
    let s := after (.updateArrival 1000000000 9
      { region := 20, version := 701, offset := 18, mask := none, closeAfter := false, data := [0x9C] }) s
    ((after (.scanGroup 0) s).host.completionQueue.map fun c =>
      (c.status, c.found, c.position, c.count, c.disturbed, c.version)) = [(.done, true, 18, 5, true, 701)] := by decide

/-! ## Witnesses of the statements' hypotheses

Each shows, clause by clause, concrete states and operands that meet the clause's hypotheses. -/

/-- The command in execution on region 5 at this stage, OPEN without WAIT unless the stage says otherwise. -/
def running (p : Progress) (kind : Byte := 1) : Running :=
  { record := record kind 5 4 3, region := 5, abort := false, progress := p }

def executing (s : State) (p : Progress) : State := { s with unit := .executing (running p) }

/-- This station's frame `f`, queued as `i`, is in flight at the head of queue `q`. -/
def sending (s : State) (q : QueueId) (f : Frame) (i : Item) : State :=
  { s with liu := { (s.liu.setQueue q [{ item := i, marked := false }]) with transmitter := .sending q f } }

/-- Region 5 held by this station, and by station 7. -/
def ownHeld : State := withEntry member 5 (.held 3 1020000000 (.running 1019000000))
def otherHeld : State := withEntry member 5 (.held 7 1020000000 .notOwn)

/-- A completion record. -/
def done : Completion :=
  { tag := 1, kind := 1, status := .done, reason := .none, version := 0, count := 0, position := 0, found := false,
    exhausted := false, disturbed := false, released := false }

def withCompletions (s : State) (n : Nat) : State :=
  { s with host := { s.host with completionQueue := List.replicate n done } }

/-- Six CLAIMs of the last 500 µs stand in the budget list. -/
def fullBudget (s : State) : State :=
  { s with budget := List.replicate 6 { claim := { station := 7, number := 1 }, arrival := 999500000 } }

/-- A joiner of station 7 at this attempt, with these groups. -/
def joiner (attempt : Nat) (runSet : List Group) : State :=
  { inState .joining with
    directory := Vector.replicate 64 Entry.unknown
    replicas := Vector.replicate 64 Replica.reset
    membership := { (inState .joining).membership with
      join := some { attempt := attempt, responder := some 7, runSet := runSet, gap := some 1004000000, renewal := some 1004000000 } } }

theorem not_resyncing {s : State} (h : s.station ≠ .leaving) : s.notResyncing := fun k => absurd k h

theorem witness_EveryCommandCompletesAndKeepsTheQueue :
    ({ member with powered := false } : State).powered = false ∧ ∀ t, Instr.status 0 ≠ .powerOn t := ⟨rfl, nofun⟩

theorem witness_OnlyTheNamedCommandsWriteTheImage :
    mayWriteImage (.claimArrival 0 7 5 1) = false ∧
      let u := { upd 4 [1, 2] with mask := some 2 }
      ((6 : Region) ≠ u.region) ∧ 3 < u.offset.toNat ∧ u.offset.toNat + u.data.length ≤ 6 ∧
        maskSelects u.mask (4 - u.offset.toNat) = false := by decide

theorem witness_EveryCommandKeepsTheImageSound : member.imageSound := ⟨by decide, nofun, nofun⟩
theorem witness_EveryCommandKeepsTheListsBounded :
    (let s := withCondition (fullBudget (withCompletions member 16)) 5 .stale
     { s with transfer := { s.transfer with repairList := [5] } } : State).listsBounded :=
  ⟨by decide, by decide, by decide, by decide, by decide, by decide, by decide, by decide, by decide, nofun⟩
theorem witness_EveryCommandKeepsTheDirectorySound : ownHeld.directorySound ∧ ownHeld.membershipSound := by
  unfold State.directorySound State.membershipSound; decide
theorem witness_EveryCommandKeepsTheMembershipSound : (joiner 1 []).membershipSound := by
  unfold State.membershipSound; decide

theorem witness_EveryCommandKeepsTheChangeSet :
    (member.addChanges [17, 3]).host.changeSet.Pairwise (· < ·) ∧ emptiesChangeSet (.detach 0) = false := by decide

theorem witness_AResetLeavesTheInitialState : member.powered = true := rfl

theorem witness_ConfigureAnswersByTheTable :
    (member.powered = true ∧ member.station ≠ .unconfigured) ∧
      (State.reset.powered = true ∧ State.reset.station = .unconfigured ∧ 15 < (16 : Byte).toNat) ∧
      (State.reset.station = .unconfigured ∧ (15 : Byte).toNat ≤ 15 ∧ 50 < (51 : Byte).toNat) ∧
      ((15 : Byte).toNat ≤ 15 ∧ (50 : Byte).toNat ≤ 50) := by decide

theorem witness_StatusIsReadAndItsFlagCleared :
    let s := { inState .listening with
      membership := { (inState .listening).membership with listenTimer := some 1000000000 }
      host := { member.host with transaction := .statusTaken false } }
    s.powered = true ∧ s.host.transaction = .statusTaken false ∧ s.membership.listenTimer = some 1000000000 ∧
      1000000000 ≤ max s.now 0 := by decide

theorem witness_ReadingTransactionsChangeNothingElse :
    member.powered = true ∧ readsOnly (.transactionEnd 0) = true ∧ readsOnly (.unassignedTransaction 0 14) = true := by
  decide

theorem witness_TheHostQueuesAreFirstInFirstOut :
    let bytes : List Byte := [5, 4, 3, 2, 0, 1, 0, 0, 0, 0, 0, 0, 0, 0, 0, 7]
    let q : QueuedCommand := { record := record 1 5 0 0, cancelled := false }
    let seven := { member with host := { member.host with commandQueue := List.replicate 7 q } }
    let eight := { member with host := { member.host with commandQueue := List.replicate 8 q } }
    recordComplete bytes = true ∧ seven.host.commandQueue.length < 8 ∧ 8 ≤ eight.host.commandQueue.length ∧
      (bytes.take 15).length < 15 + recordDataLength 4 (256 * 0 + 1) ∧ member.host.completionQueue = [] ∧
      (withCompletions member 1).host.completionQueue = done :: [] ∧
      ({ withCompletions member 16 with unit := .posting done } : State).unit = .posting done ∧
      (withCompletions member 16).host.completionQueue = done :: List.replicate 15 done := by decide

theorem witness_ReadsGiveTheImageAndTheRegion :
    (regionOf 63 = some 63 ∧ 1 ≤ (256 : BitVec 16).toNat ∧ (256 : BitVec 16).toNat ≤ 256 ∧
        (0 : Byte).toNat + (256 : BitVec 16).toNat ≤ 256) ∧
      regionOf 64 = none ∧ (0 : BitVec 16).toNat = 0 ∧ 256 < (257 : BitVec 16).toNat ∧
      256 < (255 : Byte).toNat + (2 : BitVec 16).toNat ∧
      ((withEntry member 5 .free (some 7)).entry 5).lastOwner = some 7 ∧ (member.entry 5).lastOwner = none := by decide

theorem witness_TakeChangesLosesNoChange :
    (member.addChanges [40, 3, 17]).powered = true ∧ (member.addChanges [40, 3, 17]).host.changeSet.Pairwise (· < ·) := by
  decide

theorem witness_AttnFollowsItsThreeConditions :
    (member.powered = true ∧ State.reset.powered = true ∧ State.reset.station = .unconfigured ∧ (2 : Byte).getLsbD 1 = true) ∧
      let s := { withCompletions member 16 with
        unit := .posting done, host := { (withCompletions member 16).host with transaction := .completionTaken } }
      s.unit = .posting done ∧ s.host.transaction = .completionTaken ∧ s.host.completionQueue.length = 16 ∧
        (after (.abort 0) s).unit = .posting done := by decide

theorem witness_ReadCountersKeepsLaterRaises : member.powered = true ∧ (0 : Byte) = 0 ∧ (1 : Byte) ≠ 0 := by decide

theorem witness_AbortActsOnTheCommandInExecution :
    (∀ run, member.unit ≠ .executing run) ∧
       (let s := sending (executing ownHeld .close) .originated (.release 5 0) (.release 5 true)
        s.unit = .executing (running .close) ∧ s.commandFlying (running .close) = true) ∧
       (let s := withCompletions (executing ownHeld (.chunk none 32 36 0 32 false)) 15
        s.unit = .executing (running (.chunk none 32 36 0 32 false)) ∧
          s.commandFlying (running (.chunk none 32 36 0 32 false)) = false ∧ s.host.completionQueue.length < 16) ∧
       (let s := sending (executing member (.openClaimQueued .noWait .none)) .originated (.claim 5 1) (.claim 5 (some 1))
        s.commandFlying (running (.openClaimQueued .noWait .none)) = true) ∧
      (executing member (.openClaimQueued .noWait .none)).commandFlying (running (.openClaimQueued .noWait .none)) = false ∧
      (executing member (.openClaimPending .noWait)).unit = .executing (running (.openClaimPending .noWait)) ∧
      (executing member (.openWaiting .expired .held)).unit = .executing (running (.openWaiting .expired .held)) ∧
      (executing member (.scan (-1) 8 true)).unit = .executing (running (.scan (-1) 8 true)) :=
  ⟨nofun, by decide⟩

theorem witness_HostStateRequestsFollowTheTable :
    (inState .detached).station = .detached ∧ member.station ≠ .detached ∧ (inState .unconfigured).station = .unconfigured ∧
      (inState .leaving).station = .leaving ∧ (inState .joining).station = .joining ∧
      (ownHeld.station = .member ∧ 0 < ownHeld.heldCount + ownHeld.pendingCount) ∧
      (member.station = .member ∧ member.heldCount + member.pendingCount = 0 ∧ member.liu.transmitter = .off) ∧
      ((inState .leaving).station = .leaving → (inState .leaving).membership.leaveCause ≠ some .resync) ∧
      ({ (inState .leaving).membership with leaveCause := some .resync } : Membership).leaveCause = some .resync := by decide

theorem witness_CommandsThatEndAtTheirStart :
    let ready (s : State) (c : CommandRecord) : Prop :=
      (withRecord s c).readyFor c [] ∧ (withRecord s c).host.completionQueue.length < 16
    (ready (withCompletions member 15) (record 2 64 0 0) ∧ kindOf 2 = some .close ∧ regionOf 64 = none) ∧
      (ready member (record 4 63 0 33) ∧ regionOf 63 = some 63 ∧ (record 4 63 0 33).fieldsValid .write = false) ∧
      (ready (inState .leaving) (record 7 5 255 1) ∧ (record 7 5 255 1).fieldsValid .fill = true ∧
        (inState .leaving).station ≠ .member) ∧
      (ready member (record 6 5 0 256) ∧ (record 6 5 0 256).fieldsValid .copy = true ∧ member.station = .member ∧
        member.heldUnlapsed 5 = false) ∧
      (ready (withCondition ownHeld 5 .lost) (record 7 5 255 1) ∧
        (withCondition ownHeld 5 .lost).heldUnlapsed 5 = true ∧ (withCondition ownHeld 5 .lost).isCurrent 5 = false) ∧
      (let c := { record 6 5 0 256 with secondRegion := 6 }
       ready ownHeld c ∧ c.fieldsValid .copy = true ∧ regionOf c.secondRegion = some 6 ∧ ownHeld.isCurrent 6 = true ∧
         (withCondition ownHeld 6 .stale).isCurrent 6 = false) ∧
      ((record 8 5 255 1).fieldsValid .scan = true ∧ kindOf 8 = some .scan) ∧
      (ready member (record 9 5 0 0) ∧ kindOf 9 = none) ∧
      (withRecord member (record 1 5 0 0) true).host.commandQueue = { record := record 1 5 0 0, cancelled := true } :: [] := by
  and_intros <;> first | rfl | decide

theorem witness_OpenPlacesOneClaim :
    let c := record 1 5 0 0 1
    let s := withRecord member c
    s.readyFor c [] ∧ kindOf c.kind = some .open ∧ regionOf c.region = some 5 ∧ s.station = .member ∧
      (s.entry 5).isFree = true ∧ s.isCurrent 5 = true ∧ (s.advance 0).budgetRoom = true ∧ s.originatedFree ∧
      c.wait = true := by and_intros <;> first | rfl | decide

theorem witness_OpenWithoutAClaim :
    let c := record 1 5 0 0 1
    (withRecord ownHeld c).readyFor c [] ∧ ownHeld.heldUnlapsed 5 = true ∧
      (let s := withCondition member 5 .stale; s.heldUnlapsed 5 = false ∧ s.isCurrent 5 = false) ∧
      (otherHeld.heldUnlapsed 5 = false ∧ otherHeld.isCurrent 5 = true ∧ (otherHeld.entry 5).isFree = false) ∧
       (let s := fullBudget member
        s.isCurrent 5 = true ∧ (s.entry 5).isFree = true ∧ (s.advance 0).budgetRoom = false) ∧
      c.wait = true ∧ (record 1 5 0 0).wait = false := by and_intros <;> rfl

theorem witness_HolderCommandsPlaceOneFrame :
    let c := record 4 5 253 3
    let s := withRecord ownHeld c
    s.readyFor c [] ∧ regionOf c.region = some 5 ∧ s.station = .member ∧ s.heldUnlapsed 5 = true ∧ s.originatedFree ∧
      kindOf c.kind = some .write ∧ c.writeFieldsValid = true ∧ s.isCurrent 5 = true ∧
      (withCondition s 5 .stale).isCurrent 5 = false ∧ kindOf 2 = some .close ∧ kindOf 3 = some .renew := by
  and_intros <;> first | rfl | decide

theorem witness_RepairReturnsALostReplica :
    let c := record 5 5 0 0
    let s := withRecord member c
    s.readyFor c [] ∧ kindOf c.kind = some .repair ∧ (s.replica 5).condition = .current ∧
      ((withCondition s 5 .unsynced).replica 5).condition = .unsynced ∧
      ((withCondition s 5 .lost).replica 5).condition = .lost ∧ (withCondition s 5 .lost).inReception 5 = false := by
  and_intros <;> rfl

theorem witness_BlockCommandsPlaceTheirFirstChunk :
    let c := { record 6 5 4 252 with flags := 8 }
    let s := withRecord ownHeld c
    s.readyFor c [] ∧ regionOf c.region = some 5 ∧ s.station = .member ∧ s.heldUnlapsed 5 = true ∧ s.isCurrent 5 = true ∧
      s.originatedFree ∧ kindOf c.kind = some .copy ∧ c.copyFieldsValid = true ∧ regionOf c.secondRegion = some 5 ∧
      kindOf 7 = some .fill ∧ (record 7 5 0 256).fillFieldsValid = true := by and_intros <;> first | rfl | decide

theorem witness_ChunksCopyByteByByte :
    Memory.wf [(0, 1), (255, 7)] = true ∧ { record 6 5 4 252 with flags := 8 }.copyFieldsValid = true := by decide

theorem witness_ScanFindsTheFirstMatch :
    let c := record 8 5 255 256 8
    let s := withRecord member c
    (s.readyFor c [] ∧ kindOf c.kind = some .scan ∧ c.scanFieldsValid = true ∧ s.isCurrent 5 = true ∧
        s.host.completionQueue.length < 16) ∧
       (let s := (executing member (.scan 250 9 false)).setReplica 5
          { condition := .current, version := 1, content := [(252, 0x80)], attempts := 0 }
        readByte (s.replica 5).content (250 + 2) &&& 0x80#8 = 0x80#8 ∧
          ∀ j, j < 2 → ¬ (readByte (s.replica 5).content (250 + j) &&& 0x80 = 0x80#8)) ∧
      (∀ i, i < min 8 8 → ¬ (readByte (member.replica 5).content (0 + i) &&& 0x80 = 0x80#8)) := by
  and_intros <;> first | rfl | decide

theorem witness_ThePostingSlotIsKept :
    let s := { withCompletions (withRecord member (record 1 5 0 0)) 16 with unit := .posting done }
    s.powered = true ∧ s.unit = .posting done ∧ emptiesPostingSlot (.abortAll 0) = false ∧
      ({ withCompletions member 15 with unit := .posting done } : State).host.completionQueue.length < 16 ∧
      s.host.completionQueue = done :: List.replicate 15 done := by decide

theorem witness_OpenWaitDeadlineEndsAWaitingOpen :
    let w := WaitClock.till 1000000000
    ((executing member (.openWaiting w .held)).unit = .executing (running (.openWaiting w .held)) ∧
        1000000000 ≤ max member.now 0) ∧
      (executing member (.openClaimQueued w .none)).unit = .executing (running (.openClaimQueued w .none)) ∧
      (executing member (.openClaimPending w)).unit = .executing (running (.openClaimPending w)) ∧
      max member.now 0 < 1000000001 := by decide

theorem witness_ClaimsOfOtherStations :
    (member.powered = true ∧ member.isSelf 7 = false ∧ (member.entry 5).state = .free ∧ member.station.listens = true ∧
        (member.advance 0).budgetRoom = true ∧ member.station ≠ .leaving) ∧
       (let s := fullBudget member
        (s.advance 0).budgetRoom = false ∧ s.station.transmits = true ∧ s.transfer.jobs = [] ∧ s.liu.reply.length < 8 ∧
          s.liu.replyWaiting = []) ∧
      ((ownHeld.entry 5).state = .held 3 1020000000 (.running 1019000000) ∧ ownHeld.authority 5 = true ∧
        ownHeld.station.participates = true) ∧
       (let s := withEntry member 5 (.settling .released 1000300000) (some 7)
        (s.entry 5).state = .settling .released 1000300000 ∧ s.authority 5 = false ∧ (s.entry 5).overheard = none) ∧
       (let s := (withEntry member 5 (.settling .released 1000300000) (some 7)).noteOverheard 5 { station := 8, number := 1 }
        s.authority 5 = false ∧ (s.entry 5).overheard ≠ none) ∧
       (let s := withEntry member 5 (.claimed { station := 3, number := 1 } 1000100000)
        (s.entry 5).state = .claimed { station := 3, number := 1 } 1000100000 ∧ s.authority 5 = true) ∧
      ((withEntry member 5 .unknown).entry 5).state = .unknown ∧
       (let p := Progress.openClaimQueued .noWait .none
        let s := executing member p
        let s := { s with liu := { s.liu with originated := [{ item := .claim 5 (some 1), marked := false }] } }
        s.ownClaimWaits 5 = true ∧ s.unit = .executing (running p)) := by decide

theorem witness_OwnClaimEchoDecidesTheOpen :
    let p := Progress.openClaimQueued .noWait .none
    let s := sending (executing member p) .originated (.claim 5 1) (.claim 5 (some 1))
    (s.powered = true ∧ s.station = .member ∧ s.isSelf 3 = true ∧
        s.inFlight .originated (.claim 5 1) { item := .claim 5 (some 1), marked := false } [] ∧
        s.unit = .executing (running p) ∧ (s.entry 5).state = .free) ∧
      ((withEntry s 5 (.held 7 1020000000 .notOwn)).entry 5).state ≠ .free := by
  and_intros <;> first | rfl | decide

theorem witness_ObjectSettlesThePendingClaim :
    let c : Claim := { station := 8, number := 255 }
    let s := withEntry member 5 (.claimed c 1000100000)
    (s.powered = true ∧ s.isSelf 7 = false ∧ s.station ≠ .leaving ∧ s.outOfStep < 15 ∧ (255 : Version).toNat ≤ 255) ∧
      (member.entry 5).state.view ≠ .claimed c ∧ (s.entry 5).state.view = .claimed c ∧
      (s.replica 5).condition = .current ∧ (s.replica 5).version ≠ 255 ∧
      ((withCondition s 5 .lost).replica 5).condition ≠ .current := by decide

theorem witness_UpdateFromTheOwnerIsApplied :
    let u := upd 254 [1, 2]
    otherHeld.isSelf 7 = false ∧ u.goodForm = true ∧ (otherHeld.entry u.region).state = .held 7 1020000000 .notOwn ∧
      (otherHeld.replica u.region).condition = .current ∧ u.version = (otherHeld.replica u.region).version + 1 ∧
      Memory.wf (otherHeld.replica u.region).content = true ∧ otherHeld.station ≠ .leaving ∧
      ({ u with closeAfter := true } : Update).closeAfter = true := by decide

/-- A reception of region 5 from station 7 that waits for part `n`. -/
def receiving (s : State) (kind : TransferKind) (n : Nat) : State :=
  { s with transfer := { s.transfer with
      reception := some { region := 5, source := 7, kind := kind, version := 9, next := n, buffer := [], catchUp := [],
                          deadline := 1000000000 } } }

theorem witness_UpdateOutOfStepMakesStale :
    let u := { upd 0 [1] with version := 2 }
    (otherHeld.isSelf 7 = false ∧ otherHeld.station ≠ .leaving ∧ otherHeld.outOfStep < 15 ∧ u.goodForm = true) ∧
      ((withEntry member 5 .unknown).entry u.region).state = .unknown ∧
      ((otherHeld.entry u.region).heldBy 7 = true ∧ (otherHeld.replica u.region).condition = .current ∧
        otherHeld.inReception u.region = false ∧ u.version ≠ (otherHeld.replica u.region).version + 1) ∧
      ((otherHeld.entry u.region).state ≠ .unknown ∧ (otherHeld.entry u.region).heldBy 8 = false ∧
        ((withCondition otherHeld 5 .lost).replica u.region).condition ≠ .current) ∧
      ((withCondition otherHeld 5 .lost).replica u.region).condition = .lost ∧
       (let s := receiving (withCondition otherHeld 5 .stale) .refresh 1
        (s.replica 5).condition ≠ .current ∧ s.transfer.reception.map (·.region) = some u.region ∧
          s.transfer.reception.map (·.catchUp.length) = some 0 ∧
          16 ≤ (List.replicate 16 ({ sender := 7, update := u } : CatchUp)).length) ∧
       (let fifteen (s : State) : State :=
          (List.range 15).foldl (fun s i => withCondition s (Fin.ofNat 64 (10 + i)) .stale) s
        let due (s : State) : Prop := s.station = .member ∧ 15 ≤ s.outOfStep ∧ (s.entry u.region).state ≠ .unknown ∧
          (s.replica u.region).condition = .current ∧ s.isSelf 8 = false ∧ (s.entry u.region).heldBy 8 = false
        (due (fifteen ownHeld) ∧ 0 < (fifteen ownHeld).heldCount + (fifteen ownHeld).pendingCount) ∧
          due (fifteen otherHeld) ∧ (fifteen otherHeld).heldCount + (fifteen otherHeld).pendingCount = 0 ∧
            (fifteen otherHeld).liu.transmitter = .off) := by
  and_intros <;> decide

theorem witness_RenewAndReleaseActOnTheHolding :
    (otherHeld.isSelf 7 = false ∧ otherHeld.station ≠ .leaving ∧ (otherHeld.entry 5).state = .held 7 1020000000 .notOwn) ∧
      ((otherHeld.entry 5).heldBy 8 = false ∧ (otherHeld.entry 5).state ≠ .unknown) ∧
      ((withEntry member 5 .unknown).entry 5).state = .unknown ∧
      (otherHeld.outOfStep < 15 ∧ (otherHeld.entry 5).heldBy 7 = true ∧
        ((withCondition otherHeld 5 .lost).replica 5).condition = .lost ∧ (otherHeld.replica 5).condition = .current ∧
        (otherHeld.replica 5).version ≠ 1 ∧ (otherHeld.replica 5).version = 0) := by decide

theorem witness_EchoesEndTheHolderCommands :
    let u := upd 4 [1, 2, 3]
    let held := (ownHeld.entry 5).state = .held 3 1020000000 (.running 1019000000)
    (held ∧ ownHeld.isSelf 3 = true ∧ ownHeld.outOfStep < 15 ∧ (withCompletions ownHeld 15).host.completionQueue.length < 16) ∧
       (let s := sending (executing ownHeld .write) .originated (.update u) (.update 5 4 none false (.bytes [1, 2, 3]))
        s.inFlight .originated (.update u) { item := .update 5 4 none false (.bytes [1, 2, 3]), marked := false } [] ∧
          s.unit = .executing (running .write) ∧ u.goodForm = true ∧ (s.replica 5).condition = .current ∧
          u.version = (s.replica 5).version + 1) ∧
      (sending (executing ownHeld .renew) .originated (.renew 5) (.renew 5)).inFlight .originated (.renew 5)
        { item := .renew 5, marked := false } [] ∧
      ((sending (executing ownHeld .close) .originated (.release 5 0) (.release 5 true)).inFlight .originated (.release 5 0)
        { item := .release 5 true, marked := false } [] ∧ (ownHeld.replica 5).version = 0) ∧
       (let p := Progress.chunk (some 5) 0 4 0 3 false
        let s := sending (executing ownHeld p) .originated (.update u) (.update 5 4 none false (.replica 5 0 3))
        s.unit = .executing (running p) ∧ (running p).record.length.toNat ≤ 0 + 3 ∧
          s.inFlight .originated (.update u) { item := .update 5 4 none false (.replica 5 0 3), marked := false } []) ∧
       (let p := Progress.chunk none 0 4 0 2 false
        0 + 2 < (running p).record.length.toNat ∧ u.closeAfter = false ∧ (running p).abort = false ∧
          (executing ownHeld p).liu.originatedWaiting = []) := by
  and_intros <;> first | rfl | decide

theorem witness_EveryGoodArrivalIsHeard :
    (Instr.leaveArrival 0 7).arrivingFrame = some (7, .leave) ∧ Frame.leave.goodForm = true ∧
      (Instr.presenceArrival 0 7 .member 65).arrivingFrame = some (7, .presence .member 65) ∧
      (Frame.presence .member 65).goodForm = false ∧ member.liu.transmitter = .off ∧ member.liu.collisionEnd = none ∧
      member.station.listens = true ∧ member.isSelf 7 = false := by decide

theorem witness_DuplicateNumberDetaches :
    (Instr.renewArrival 0 3 5).arrivingFrame = some (3, .renew 5) ∧ (Frame.renew 5).goodForm = true ∧
      member.station.checksNumber = true ∧ member.isSelf 3 = true ∧ member.liu.transmitter = .off := by decide

/-- The holding of `otherHeld` began at 1 s: a PRESENCE that ends 7 µs later did not begin after it, one of 7.001 µs did. -/
theorem witness_PresenceEndsContradictedHoldings :
    otherHeld.isSelf 7 = false ∧ otherHeld.station.transmits = true ∧ otherHeld.station ≠ .leaving ∧ (64 : Byte).toNat ≤ 64 ∧
      (64 : Byte) ≠ 0 ∧ (otherHeld.entry 5).state = .held 7 1020000000 .notOwn ∧
      1020000000 + 7000 < max otherHeld.now 1000007001 + otherHeld.leaseTime ∧
      max otherHeld.now 1000007000 + otherHeld.leaseTime ≤ 1020000000 + 7000 := by decide

theorem witness_LeaveEndsItsSendersHoldings :
    (otherHeld.isSelf 7 = false ∧ otherHeld.station.listens = true ∧ otherHeld.station ≠ .leaving ∧
        otherHeld.station ≠ .joining ∧ (otherHeld.entry 5).heldBy 7 = true) ∧
       (let s := withEntry member 5 (.claimed { station := 7, number := 0 } 1000100000)
        (s.entry 5).state = .claimed { station := 7, number := 0 } 1000100000 ∧ (s.entry 6).heldBy 7 = false) ∧
       (let s := sending (inState .leaving) .originated .leave .leave
        s.isSelf 3 = true ∧ s.station = .leaving ∧ s.inFlight .originated .leave { item := .leave, marked := false } []) := by
  and_intros <;> first | rfl | decide

theorem witness_RefreshRequestsAreAnswered :
    (ownHeld.isSelf 7 = false ∧ ownHeld.station ≠ .leaving ∧ ownHeld.transfer.jobs = [] ∧ ownHeld.station.participates = true ∧
        (ownHeld.answerer 5 7).any ownHeld.isSelf = true ∧ (ownHeld.replica 5).condition = .current ∧ ownHeld.replyFree) ∧
      (otherHeld.answerer 5 8).any otherHeld.isSelf = false ∧
       (let s := sending { member with transfer := { member.transfer with repairStage := .requestQueued } } .originated
          (.refreshReq 5) (.refreshReq 5)
        s.inFlight .originated (.refreshReq 5) { item := .refreshReq 5, marked := false } [] ∧
          s.transfer.repairStage = .requestQueued) := by
  and_intros <;> first | rfl | decide

/-- Part `p` of region 5 for this station. -/
def part (p : Part) : PartField := { peer := 3, region := 5, version := 9, part := p, data := List.replicate 32 1 }

theorem witness_PartZeroOpensAReception :
    ((part 0).goodForm = true ∧ (part 0).part = 0 ∧ member.isSelf (part 0).peer = true ∧ member.isSelf 7 = false ∧
        member.transfer.reception = none ∧ member.transfer.jobs = []) ∧
       (let s := { member with transfer := { member.transfer with repairList := [5], repairStage := .awaitingPart0 } }
        s.station = .member ∧ s.transfer.repairList.head? = some (part 0).region ∧ s.transfer.repairStage ≠ .idle) ∧
       (let s := withEntry (joiner 1 []) 5 .free
        s.station = .joining ∧ s.isResponder 7 = true ∧ (s.entry (part 0).region).state ≠ .unknown ∧
          (s.replica (part 0).region).condition = .unsynced) := by decide

theorem witness_PartsFillTheReception :
     (let s := receiving (joiner 1 []) .snap 6
      s.isSelf 7 = false ∧ s.isSelf (part 6).peer = true ∧ s.transfer.jobs = [] ∧ s.station = .joining ∧
        s.isResponder 7 = true ∧ s.isResponder 8 = false ∧ s.isSelf 8 = false ∧ (part 6).part.val = 6 ∧
        (part 6).version = 9 ∧ (part 6).part ≠ 7) ∧
       (let s := receiving member .refresh 7
        s.transfer.reception = some { region := 5, source := 7, kind := .refresh, version := 9, next := 7, buffer := [],
                                      catchUp := [], deadline := 1000000000 } ∧
          (part 7).goodForm = true ∧ s.station ≠ .leaving ∧ s.outOfStep < 15 ∧ (part 7).part = 7 ∧ (part 7).version = 9) ∧
      (part 5).part.val ≠ 6 ∧
       (let e (v : Version) : CatchUp := { sender := 7, update := { upd 0 [1] with version := v } }
        (∀ k, k ∈ [e 9] → versionAfter k.update.version 9 = false) ∧
          (∀ i : Fin 2, ∀ k, [e 10, e 11][i.val]? = some k → k.update.version = 9 + BitVec.ofNat 16 (i.val + 1)) ∧
          versionAfter (e 13).update.version 9 = true ∧
          (e 13).update.version ≠ 9 + BitVec.ofNat 16 ([e 10, e 11].length + 1)) := by decide

/-- Part `p` of region 5 for station 7 is on the line, with this job. -/
def serving (f : Frame) (i : Item) (job : Job) : State :=
  sending { member with transfer := { member.transfer with
    jobs := [job], buffer := some { region := 5, version := 9, content := [(32, 1)] } } } .reply f i

theorem witness_EchoesPlaceTheNextPart :
    let f (p : Part) : PartField := { part p with peer := 7 }
    ( let s := serving (.refreshData (f 6)) (.part .refresh (f 6)) (.refresh 5 7 (.at 6))
      s.isSelf 3 = true ∧ s.station ≠ .leaving ∧ (f 6).goodForm = true ∧ s.liu.replyWaiting = [] ∧
        s.liu.reply = { item := .part .refresh (f 6), marked := false } :: [] ∧
        s.liu.transmitter = .sending .reply (.refreshData (f 6)) ∧
        s.transfer.jobs = [.refresh (f 6).region (f 6).peer (.at (f 6).part)] ∧ (f 6).part ≠ 7) ∧
      (serving (.refreshData (f 7)) (.part .refresh (f 7)) (.refresh 5 7 (.at 7))).transfer.jobs =
        [.refresh (f 7).region (f 7).peer (.at (f 7).part)] ∧
      (serving (.snap (f 0)) (.partZero .snap 7 5) (.sync 7 (.snapshot 5 0))).transfer.jobs =
        [.sync (f 0).peer (.snapshot (f 0).region (f 0).part)] ∧
       (let es : List DirField := List.replicate 8 { shown := .free, lastOwner := none, version := 0 }
        (Frame.dir 7 6 es).goodForm = true ∧ (6 : Group) ≠ 7 ∧
          (serving (.dir 7 6 es) (.dir 7 6) (.sync 7 (.dir 6))).transfer.jobs = [.sync 7 (.dir 6)] ∧
          (serving (.dir 7 7 es) (.dir 7 7) (.sync 7 (.dir 7))).transfer.jobs = [.sync 7 (.dir 7)]) ∧
      ((serving (.snap (f 7)) (.part .snap (f 7)) (.sync 7 (.snapshot 5 7))).transfer.jobs =
          [.sync (f 7).peer (.snapshot (f 7).region 7)] ∧ (f 7).part = 7 ∧ (6 : Region).val = (f 7).region.val + 1) ∧
      (let g : PartField := { f 7 with region := 63 }
       (serving (.snap g) (.part .snap g) (.sync 7 (.snapshot 63 7))).transfer.jobs = [.sync g.peer (.snapshot g.region 7)]) ∧
      (let s := serving (.snap (f 7)) (.part .snap (f 7)) (.sync 7 (.snapshot 5 7))
       (s.withTransfer fun x => { x with jobs := x.jobs ++ [.refresh 9 8 .waiting] }).transfer.jobs =
          .sync (f 7).peer (.snapshot (f 7).region 7) :: .refresh 9 8 .waiting :: [] ∧ (f 7).region.val < 63) ∧
      (let s := serving (.syncEnd 7) (.syncEnd 7) (.sync 7 .ending)
       s.transfer.jobs = [.sync 7 .ending] ∧ s.liu.transmitter = .sending .reply (.syncEnd 7)) := by decide

theorem witness_JoinRequestsStartOrRestartAJoin :
     (let s := member.setMember 3 { presence := .member, lastHeard := none, absence := none }
      s.isSelf 7 = false ∧ s.station.participates = true ∧ s.transfer.jobs = [] ∧ s.replyFree ∧
        (s.lowestMember 7).any s.isSelf = true) ∧
      (member.lowestMember 7).any member.isSelf = false ∧
       (let s := joiner 3 [0]
        s.isSelf 7 = false ∧ s.station = .joining ∧ s.originatedFree ∧ s.liu.transmitter = .off ∧
          s.membership.join = some { attempt := 3, responder := some 7, runSet := [0], gap := some 1004000000,
                                     renewal := some 1004000000 }) ∧
      (sending (joiner 1 []) .originated .joinReq (.joinReq false)).inFlight .originated .joinReq
        { item := .joinReq false, marked := false } [] ∧
       (let rec' : JoinRecord := { attempt := 1, responder := none, runSet := [], gap := none, renewal := none }
        let s := (joiner 1 []).withMembership fun m => { m with join := some rec' }
        s.station = .joining ∧ s.membership.join = some rec' ∧ s.isSelf 7 = false ∧ s.isSelf 3 = true ∧
          (Instr.syncEndArrival 0 3 9).arrivingFrame = some (3, .syncEnd 9) ∧ (Frame.syncEnd 9).goodForm = true ∧
          (sending s .reply (.syncEnd 9) (.syncEnd 9)).inFlight .reply (.syncEnd 9)
            { item := .syncEnd 9, marked := false } []) := by
  and_intros <;> first | rfl | decide

theorem witness_DirIsInstalledByTheJoiner :
    let es : List DirField := List.replicate 8 { shown := .held 3, lastOwner := none, version := 0 }
    let s := joiner 1 [0]
    s.isSelf 7 = false ∧ s.isSelf 3 = true ∧ s.station = .joining ∧ (Frame.dir 3 7 es).goodForm = true ∧
      s.membership.join.map (·.responder) = some (some 7) ∧ (63 : Region).val / 8 = (7 : Group).val ∧
      es[(63 : Region).val % 8]? = some { shown := .held 3, lastOwner := none, version := 0 } ∧
      (55 : Region).val / 8 ≠ (7 : Group).val := by decide

theorem witness_SyncEndEndsTheJoin :
    let s := joiner 4 [0, 1, 2, 3, 4, 5, 6, 7]
    (s.isSelf 7 = false ∧ s.isSelf 3 = true ∧ s.station = .joining ∧ s.transfer.reception = none ∧
        ∀ g : Group, g ∈ ([0, 1, 2, 3, 4, 5, 6, 7] : List Group)) ∧
      ¬ (∀ g : Group, g ∈ ([0, 1, 2, 3, 4, 5, 6] : List Group)) ∧
      (joiner 3 [0]).membership.join.map (·.attempt) = some 3 ∧ (joiner 4 [0]).membership.join.map (·.attempt) = some 4 := by
  decide

theorem witness_LineActivityAndFreedPlaces :
    (member.liu.transmitter = .off ∧ member.station ≠ .leaving ∧ member.liu.collisionEnd = none) ∧
      (let s := { member with liu := { member.liu with transmitter := .jamming 1000002000 } }
       s.liu.transmitter = .jamming 1000002000 ∧ max s.now 1000001999 < 1000002000 ∧ 1000002000 ≤ max s.now 1000002000) ∧
       (let s := { member with liu := { member.liu with collisionEnd := some 1000002000 } }
        s.liu.collisionEnd = some 1000002000 ∧ max s.now 1000002000 ≤ 1000002000 ∧ 1000002000 < max s.now 1000002001) ∧
       (let l := { member.liu with
        originatedWaiting := [.claim 5 none, .presence]
        originated := List.replicate 7 { item := .presence, marked := false } }
        l.waiting .originated = .claim 5 none :: [.presence] ∧ (l.queue .originated).length < 8) ∧
      8 ≤ (({ member.liu with originated := List.replicate 8 { item := .presence, marked := false } } : Liu).queue
        .originated).length := by decide

theorem witness_AccessBeginsTheChosenFrame :
    let at' (s : State) (q : QueueId) (i : Item) : State :=
      { s with liu := s.liu.setQueue q [{ item := i, marked := false }] }
    ( let s := at' ownHeld .originated (.renew 5)
      s.self = some 3 ∧ s.station.transmits = true ∧ s.station ≠ .leaving ∧ s.liu.transmitter = .off ∧
        s.liu.queue .originated = { item := .renew 5, marked := false } :: [] ∧ s.liu.reply = [] ∧
        max s.now 1000004499 < s.accessAt 3 ∧ s.accessAt 3 ≤ max s.now 1000004500) ∧
      ((at' member .originated (.claim 5 (some 1))).advance 1000004500).budgetRoom = true ∧
      ((at' ownHeld .originated (.update 5 0 none false (.replica 6 0 1))).replica 6).condition = .current ∧
      (at' ownHeld .reply (.object { station := 8, number := 1 } 5 false 1000000000)).entry 5 = ownHeld.entry 5 ∧
      (ownHeld.entry 5).state = .held 3 1020000000 (.running 1019000000) ∧
      (after (.accessInstant 1000004500) (at' ownHeld .originated (.renew 5))).liu.transmitter =
        .sending .originated (.renew 5) := by decide

theorem witness_CollisionCountsAndIsolates :
    let s := sending member .originated (.renew 5) (.renew 5)
    (s.inFlight .originated (.renew 5) { item := .renew 5, marked := false } [] ∧ s.station ≠ .leaving ∧
        (∀ run, s.unit ≠ .executing run) ∧ s.liu.failures < 7) ∧
      (let s := { s with liu := { s.liu with failures := 7 } }; 7 ≤ s.liu.failures ∧ s.station.transmits = true) ∧
      s.self = some 3 ∧ (Frame.renew 5).goodForm = true ∧ (Frame.renew 6).goodForm = true ∧
      (transmission 3 (.renew 5)).length = (transmission 9 (.renew 6)).length ∧
      (transmission 9 (.renew 6)).take 24 = (transmission 3 (.renew 5)).take 24 ∧
      (transmission 3 (.renew 5))[24]? = some .b ∧ (transmission 9 (.renew 6))[24]? = some .a :=
  ⟨⟨⟨rfl, rfl⟩, by decide, nofun, by decide⟩, by decide, rfl, by decide +kernel⟩

theorem witness_DirectoryDeadlines :
     (let s := executing (withEntry member 5 (.claimed { station := 3, number := 1 } 1000000000)) (.openClaimPending .noWait)
      (s.entry 5).state = .claimed { station := 3, number := 1 } 1000000000 ∧ 1000000000 ≤ max s.now 0 ∧
        s.isSelf 3 = true ∧ s.unit = .executing (running (.openClaimPending .noWait)) ∧ s.station ≠ .leaving) ∧
      (otherHeld.entry 5).state = .held 7 1020000000 .notOwn ∧ 1020000000 ≤ max otherHeld.now 1020000000 ∧
      max otherHeld.now 1019999999 < 1020000000 ∧
      ((otherHeld.noteOverheard 5 { station := 8, number := 1 }).entry 5).overheard =
        some { claim := { station := 8, number := 1 }, adoption := 1000250000 } := by decide

theorem witness_SettleExpiryFreesTheRegion :
    let s := withEntry member 5 (.settling .expired 1000000000) (some 7)
    s.powered = true ∧ s.notResyncing ∧ (s.entry 5).state = .settling .expired 1000000000 ∧ 1000000000 ≤ max s.now 0 ∧
      s.isSelf 7 = false ∧ (255 : Version).toNat ≤ 255 := ⟨rfl, not_resyncing (by decide), by decide⟩

theorem witness_OwnerSideExpiryLapsesTheHolding :
    let s := withCompletions (executing ownHeld .write) 15
    s.station = .member ∧ (s.entry 5).state = .held 3 1020000000 (.running 1019000000) ∧
      1019000000 ≤ max s.now 1019000000 ∧ s.liu.transmitter = .off ∧ s.originatedFree ∧
      s.unit = .executing (running .write) ∧ s.host.completionQueue.length < 16 := by
  and_intros <;> first | rfl | decide

theorem witness_BudgetAndObjectionDeadlines :
    let s := fullBudget member
    s.budget = { claim := { station := 7, number := 1 }, arrival := 999500000 } :: s.budget.tail ∧
      999500000 + 1000000 ≤ max s.now 1000500000 ∧ max s.now 1000499999 < 999500000 + 1000000 ∧
      s.liu.transmitter = .off ∧ s.host.counters.objectionsWithdrawn.toNat + 8 < 65535 ∧ s.liu.reply.length ≤ 8 ∧
      s.station ≠ .leaving := by decide

theorem witness_RepairDeadlines :
     (let s := receiving member .refresh 1
      s.station = .member ∧ 1000000000 ≤ max s.now 0) ∧
       (let s := withCondition { member with transfer := { member.transfer with
          repairList := [5], repairStage := .awaitingPart0, refreshTimer := some 1000000000 } } 5 .stale
        s.transfer.refreshTimer = some 1000000000 ∧ s.transfer.repairList.head? = some 5 ∧
          (s.replica 5).condition = .stale ∧ (s.replica 5).attempts < 2 ∧ s.originatedFree ∧
          ((s.setReplica 5 { s.replica 5 with attempts := 2 }).replica 5).attempts = 2) ∧
       (let s := { member with transfer := { member.transfer with repairList := [5] } }
        s.transfer.repairList.head? = some 5 ∧ s.transfer.repairStage = .idle ∧ s.transfer.reception = none) := by
  and_intros <;> first | rfl | decide

theorem witness_ListenExpiryJoinsOrStartsAlone :
    let s := { inState .listening with
      membership := { (inState .listening).membership with listenTimer := some 1000000000, memberHeard := true } }
    s.station = .listening ∧ s.self = some 3 ∧ s.membership.listenTimer = some 1000000000 ∧ 1000000000 ≤ max s.now 0 ∧
      s.originatedFree ∧ s.liu.transmitter = .off ∧ s.membership.memberHeard = true ∧
      (inState .listening).membership.memberHeard = false := by and_intros <;> first | rfl | decide

theorem witness_MembershipDeadlines :
     (let s := { member with membership := { member.membership with presenceTimer := some 1000000000 } }
      s.membership.presenceTimer = some 1000000000 ∧ s.originatedFree ∧ s.liu.holds .originated Item.isPresence = false ∧
        s.unit = .idle ∧ s.station ≠ .leaving ∧ 1000000000 ≤ max s.now 0) ∧
      ((joiner 1 []).membership.join.map (·.renewal) = some (some 1004000000) ∧
        (joiner 1 []).liu.holds .originated Item.isJoinReq = false ∧ (joiner 1 []).station = .joining ∧
        1004000000 ≤ max (joiner 1 []).now 1004000000) ∧
      ({ (inState .isolated).membership with isolationTimer := some 1050000000 } : Membership).isolationTimer =
        some 1050000000 ∧
       (let s := otherHeld.setMember 7 { presence := .member, lastHeard := some 970000000, absence := some 1000000000 }
        (s.member 7).absence = some 1000000000 ∧ s.isSelf 7 = false ∧ s.station ≠ .joining ∧ (s.entry 5).heldBy 7 = true) ∧
      (joiner 4 []).membership.join.map (·.gap) = some (some 1004000000) := by
  and_intros <;> first | rfl | decide

theorem witness_TransmittedFramesAreReceived :
    (Frame.update (upd 224 (List.replicate 32 1))).goodForm = true ∧
      78 + 2 ≤ (transmission 3 (.leave)).length := by decide +kernel

theorem witness_CrcIsComputedOverHeaderAndPayload : word16 0 0 ≠ crc [] := by decide

end Sys2Proof.Tests
end

section
/-! SUPPORT. What the conclusion of an event and the arrival of another station's frame leave unchanged, and what the
conclusion leaves of the change set (R7, R112, R142, R170). -/

namespace Sys2Proof.Machine

/-! ## Steps that keep the station and its regions -/

/-- The clock, the supply, the replicas, the configuration, the station state and its leave cause are as they were. -/
structure StationKept (s t : State) : Prop where
  now : t.now = s.now
  powered : t.powered = s.powered
  replicas : t.replicas = s.replicas
  config : t.host.config = s.host.config
  station : t.station = s.station
  leaveCause : t.membership.leaveCause = s.membership.leaveCause

/-- The directory is as it was too. -/
structure RegionsKept (s t : State) : Prop extends StationKept s t where
  directory : t.directory = s.directory

namespace StationKept

theorem trans {s t u : State} (h : StationKept s t) (k : StationKept t u) : StationKept s u :=
  ⟨k.now.trans h.now, k.powered.trans h.powered, k.replicas.trans h.replicas, k.config.trans h.config,
    k.station.trans h.station, k.leaveCause.trans h.leaveCause⟩

theorem isSelf {s t : State} (h : StationKept s t) (x : Station) : t.isSelf x = s.isSelf x := by
  simp only [State.isSelf, State.self, h.config]

theorem notResyncing {s t : State} (h : StationKept s t) (hs : s.notResyncing) : t.notResyncing := by
  simpa only [State.notResyncing, h.station, h.leaveCause] using hs

end StationKept

namespace RegionsKept

theorem refl (s : State) : RegionsKept s s := ⟨⟨rfl, rfl, rfl, rfl, rfl, rfl⟩, rfl⟩

theorem trans {s t u : State} (h : RegionsKept s t) (k : RegionsKept t u) : RegionsKept s u :=
  ⟨h.toStationKept.trans k.toStationKept, k.directory.trans h.directory⟩

/-- A step that may be left out. -/
theorem ite {s t : State} (h : RegionsKept s t) (b : Bool) : RegionsKept s (if b then t else s) := by
  split
  · exact h
  · exact refl s

theorem entry {s t : State} (h : RegionsKept s t) (r : Region) : t.entry r = s.entry r :=
  State.entry_congr h.directory r

end RegionsKept

theorem LineOnly.regionsKept {s t : State} (h : LineOnly s t) : RegionsKept s t :=
  ⟨⟨h.now, h.powered, h.replicas, h.config, h.station, by rw [h.membership]⟩, h.directory⟩

theorem State.advance_notResyncing {s : State} (t : Time) (h : s.notResyncing) : (s.advance t).notResyncing := h

theorem State.setEntry_stationKept (s : State) (r : Region) (e : Entry) : StationKept s (s.setEntry r e) :=
  ⟨rfl, rfl, rfl, rfl, rfl, rfl⟩

theorem State.changeEntry_stationKept (s : State) (r : Region) (e : Entry) (tell : Bool) :
    StationKept s (s.changeEntry r e tell) := by
  unfold State.changeEntry
  dsimp only
  split <;> exact ⟨rfl, rfl, rfl, rfl, rfl, rfl⟩

theorem State.changeEntry_directory (s : State) (r : Region) (e : Entry) (tell : Bool) :
    (s.changeEntry r e tell).directory = s.directory.set r e := by
  unfold State.changeEntry
  dsimp only
  split <;> rfl

theorem State.entry_changeEntry (s : State) (r q : Region) (e : Entry) (tell : Bool) :
    (s.changeEntry r e tell).entry q = if q = r then e else s.entry q := by
  rw [State.entry_congr (t := s.changeEntry r e tell) (s := s.setEntry r e) (s.changeEntry_directory r e tell)]
  exact s.entry_setEntry r q e

/-! ## The change set -/

theorem mem_insertAscending_self {n : Nat} (a : Fin n) (xs : List (Fin n)) : a ∈ insertAscending a xs := by
  induction xs with
  | nil => simp [insertAscending]
  | cons b rest ih =>
    unfold insertAscending
    split
    · simp
    · split
      · next h => simp [h]
      · simp [ih]

theorem State.mem_changeSet_changeEntry {s : State} {r : Region} {e : Entry} (h : (s.entry r).view ≠ e.view) :
    r ∈ (s.changeEntry r e true).host.changeSet := by
  simp only [State.changeEntry, bne_iff_ne.mpr h, Bool.and_self, if_true]
  exact mem_insertAscending_self r _

@[simp] theorem State.append_changeSet (s : State) (q : QueueId) (i : Item) :
    (s.append q i).host.changeSet = s.host.changeSet := by
  unfold State.append
  split <;> rfl

@[simp] theorem State.placeWaiting_changeSet (s : State) (q : QueueId) :
    (s.placeWaiting q).host.changeSet = s.host.changeSet := by
  unfold State.placeWaiting
  split
  · rfl
  · split <;> simp

theorem State.placeAllWaiting_changeSet (s : State) (q : QueueId) :
    (s.placeAllWaiting q).host.changeSet = s.host.changeSet := by
  unfold State.placeAllWaiting
  generalize s.liu.waiting q = waiting
  induction waiting generalizing s with
  | nil => rfl
  | cons i rest ih => exact (ih (s.placeWaiting q)).trans (s.placeWaiting_changeSet q)

@[simp] theorem State.place_changeSet (s : State) (q : QueueId) (i : Item) :
    (s.place q i).host.changeSet = s.host.changeSet := by
  rw [← s.placeAllWaiting_changeSet q]
  unfold State.place
  dsimp only
  split
  · exact State.append_changeSet _ q i
  · rfl

@[simp] theorem State.endCommand_changeSet (s : State) (run : Running) (status : Status) (reason : Reason) (v : Version)
    (n : Nat) (p : Int) (f x rel : Bool) :
    (s.endCommand run status reason v n p f x rel).host.changeSet = s.host.changeSet := by
  unfold State.endCommand State.post
  split <;> rfl

@[simp] theorem State.openSetback_changeSet (s : State) (run : Running) (clock : WaitClock) (reason : Reason) :
    (s.openSetback run clock reason).host.changeSet = s.host.changeSet := by
  unfold State.openSetback
  split
  · simp
  · cases clock <;> simp

@[simp] theorem State.attemptClaim_changeSet (s : State) (run : Running) (clock : WaitClock) (before : Reason) :
    (s.attemptClaim run clock before).host.changeSet = s.host.changeSet := by
  unfold State.attemptClaim
  repeat' split
  all_goals simp

@[simp] theorem State.retryOpen_changeSet (s before : State) : (s.retryOpen before).host.changeSet = s.host.changeSet := by
  unfold State.retryOpen
  repeat' split
  all_goals simp

/-! ## The conclusion of an event -/

/-- In a station that is not LEAVING for a resync, the end of the releases can only place a LEAVE (R112, R113). -/
theorem State.endReleases_of_notResyncing {s : State} (h : s.notResyncing) :
    s.endReleases = s ∨ s.endReleases = s.place .originated .leave := by
  unfold State.endReleases
  split
  · next ends =>
    have leaving : s.station = .leaving := by simp_all
    split
    · next cause => exact absurd cause (h leaving)
    · exact .inr rfl
    · exact .inr rfl
  · exact .inl rfl

/-- An event that keeps the replicas concludes with the LIU and the command unit alone, unless the station is LEAVING for a
resync (R54, R112, R170). -/
theorem State.conclude_of_notResyncing {s before : State} (hn : s.notResyncing) (hr : s.replicas = before.replicas) :
    LineOnly s (s.conclude before) ∧ (s.conclude before).host.changeSet = s.host.changeSet := by
  have sum : s.outOfStep ≤ before.outOfStep := by
    simp only [State.outOfStep, State.staleCount, State.lostCount, State.replica_congr hr, le_refl]
  have retried := s.retryOpen_lineOnly before
  rw [State.conclude, State.concludeFrom, State.requestResync_of_sum sum]
  rcases State.endReleases_of_notResyncing (retried.regionsKept.notResyncing hn) with same | placed
  · rw [same]; exact ⟨retried, s.retryOpen_changeSet before⟩
  · rw [placed]; exact ⟨retried.trans (State.place_lineOnly _ _ _), by simp⟩

/-- The next state of an event whose rules keep the replicas: what the rules give, but for the LIU and the command unit. -/
theorem event_next {t : Time} {f : State → State} {s : State} (hp : s.powered = true)
    (hn : (f (s.advance t)).notResyncing) (hr : (f (s.advance t)).replicas = s.replicas) :
    ∃ s', event t f s = .next s' ∧ LineOnly (f (s.advance t)) s' ∧
      s'.host.changeSet = (f (s.advance t)).host.changeSet :=
  ⟨(f (s.advance t)).conclude (s.advance t), by simp [event, whenPowered, hp], State.conclude_of_notResyncing hn hr⟩

/-! ## The arrival of another station's frame -/

theorem State.serveNext_regionsKept (s : State) : RegionsKept s s.serveNext := by
  have mapped (f : Job → Job) : RegionsKept s (s.mapJobs f) := ⟨⟨rfl, rfl, rfl, rfl, rfl, rfl⟩, rfl⟩
  have placed (f : Job → Job) (i : Item) : RegionsKept s ((s.mapJobs f).place .reply i) :=
    (mapped f).trans (State.place_lineOnly _ _ _).regionsKept
  unfold State.serveNext
  split
  · exact .refl s
  · split
    · exact placed _ _
    · unfold State.syncGoOn
      split <;> exact placed _ _
    · exact placed _ _
    · exact .refl s

theorem State.dropSync_regionsKept (s : State) (j : Station) : RegionsKept s (s.dropSync j) := by
  unfold State.dropSync
  split
  · have removed : RegionsKept s ((s.dropFrames (Item.isSyncFrame j)).removeJobs (Job.isSync j)) :=
      ⟨⟨rfl, rfl, rfl, rfl, rfl, rfl⟩, rfl⟩
    exact removed.trans (State.serveNext_regionsKept _)
  · exact .refl s

/-- The membership controller at another station's frame leaves the regions and this station's own state (R104, R127). -/
theorem State.otherHeard_regionsKept (s : State) (x : Station) (f : Frame) : RegionsKept s (s.otherHeard x f) := by
  have table (e : MemberEntry) : RegionsKept s (s.setMember x e) := ⟨⟨rfl, rfl, rfl, rfl, rfl, rfl⟩, rfl⟩
  have heard (u : State) : RegionsKept u (u.withMembership fun m => { m with memberHeard := true }) :=
    ⟨⟨rfl, rfl, rfl, rfl, rfl, rfl⟩, rfl⟩
  unfold State.otherHeard
  exact (((table _).trans ((heard _).ite _)).trans ((State.dropSync_regionsKept _ x).ite _)).ite _

/-- The state in which the blocks find a frame of another station: heard by the LIU and the membership controller (R142). -/
def State.heardFrom (s : State) (x : Station) (f : Frame) : State := (s.lineHeard x).otherHeard x f

theorem State.heardFrom_regionsKept (s : State) (x : Station) (f : Frame) : RegionsKept s (s.heardFrom x f) :=
  (s.withLiu_lineOnly _).regionsKept.trans (State.otherHeard_regionsKept _ x f)

/-- A frame whose sender is not this station is delivered as no echo (R142, R153). -/
theorem State.frameArrives_other {s : State} {x : Station} (f : Frame) (deliver : Option Queued → State → State)
    (hx : s.isSelf x = false) : s.frameArrives x f deliver = deliver none (s.heardFrom x f) := by
  have heard : (s.lineHeard x).isSelf x = false := hx
  have noEcho : (s.lineHeard x).ownFrame x f = none := by
    unfold State.ownFrame
    split <;> simp [heard]
  simp [State.frameArrives, noEcho, heard, State.heardFrom]

/-- The next state of a good arrival of another station's frame that keeps the replicas: what the blocks give, but for the
LIU and the command unit. -/
theorem arrival_other {t : Time} {x : Station} {f : Frame} {deliver : Option Queued → State → State} {s : State}
    (hp : s.powered = true) (hn : s.notResyncing) (hx : s.isSelf x = false) (hf : f.goodForm = true)
    (hd : ∀ u, RegionsKept (s.advance t) u → StationKept u (deliver none u)) :
    ∃ u s', arrival t x f deliver s = .next s' ∧ RegionsKept (s.advance t) u ∧ LineOnly (deliver none u) s' := by
  have heard := (s.advance t).heardFrom_regionsKept x f
  have kept := heard.toStationKept.trans (hd _ heard)
  have delivered := State.frameArrives_other (s := s.advance t) f deliver hx
  obtain ⟨s', next, line, -⟩ := event_next (f := State.frameArrives x f deliver) hp
    (by rw [delivered]; exact kept.notResyncing (State.advance_notResyncing t hn)) (by rw [delivered]; exact kept.replicas)
  exact ⟨_, s', by simpa [arrival, hf] using next, heard, delivered ▸ line⟩

end Sys2Proof.Machine
end

section
/-! The settle deadline, and the CLAIM and the OBJECT that arrive about it (R10 to R16, R20, R33). -/

namespace Sys2Proof.Machine

/-! ## The directory at a CLAIM of another station -/

theorem State.noteOverheard_stationKept (s : State) (r : Region) (c : Claim) : StationKept s (s.noteOverheard r c) := by
  unfold State.noteOverheard
  dsimp only
  split
  · exact (RegionsKept.refl s).toStationKept
  · exact s.setEntry_stationKept r _

/-- Noting an overheard claim leaves the entry's state (R16). -/
theorem State.noteOverheard_state (s : State) (r : Region) (c : Claim) :
    ((s.noteOverheard r c).entry r).state = (s.entry r).state := by
  unfold State.noteOverheard
  dsimp only
  split <;> simp

theorem State.claimAtDirectory_stationKept (s : State) (c : Claim) (r : Region) (echo : Bool) :
    StationKept s (s.claimAtDirectory c r echo) := by
  have objected :=
    ((s.placeObject_lineOnly (.object c r false s.now)).regionsKept.ite (s.objectsTo c.station r)).toStationKept
  unfold State.claimAtDirectory
  dsimp only
  split
  · exact (RegionsKept.refl s).toStationKept
  · exact s.changeEntry_stationKept r _ _
  · exact objected
  · exact objected.trans (State.noteOverheard_stationKept _ r c)
  · exact objected.trans (State.noteOverheard_stationKept _ r c)

/-- A CLAIM that finds the entry FREE makes it CLAIMED for the confirmation interval (R10). -/
theorem State.claimAtDirectory_free {s : State} {c : Claim} {r : Region} {echo : Bool} (h : (s.entry r).state = .free) :
    ((s.claimAtDirectory c r echo).entry r).state = .claimed c (s.now + Config.confirmationInterval) := by
  simp [State.claimAtDirectory, h, State.entry_changeEntry]

/-- A CLAIM that finds the entry SETTLING leaves it SETTLING (R13, R16). -/
theorem State.claimAtDirectory_settling {s : State} {c : Claim} {r : Region} {echo : Bool} {why : SettleReason} {d : Time}
    (h : (s.entry r).state = .settling why d) :
    ((s.claimAtDirectory c r echo).entry r).state = (s.entry r).state := by
  have objected := (s.placeObject_lineOnly (.object c r false s.now)).regionsKept.ite (s.objectsTo c.station r)
  simp only [State.claimAtDirectory, h]
  rw [State.noteOverheard_state, objected.entry, h]

theorem State.claimAtBudget_regionsKept (s : State) (c : Claim) (r : Region) : RegionsKept s (s.claimAtBudget c r) := by
  have listed (xs : List BudgetEntry) : RegionsKept s { s with budget := xs } := ⟨⟨rfl, rfl, rfl, rfl, rfl, rfl⟩, rfl⟩
  unfold State.claimAtBudget
  dsimp only
  split
  · split
    · exact listed _
    · split
      · exact (listed _).trans (State.placeObject_lineOnly _ _).regionsKept
      · exact listed _
  · exact .refl s

/-- Of the two blocks at a CLAIM's arrival, in either order, only the directory controller writes the directory (R44). -/
theorem State.claimAtBlocks_aroundDirectory (s : State) (c : Claim) (r : Region) (echo : Bool) :
    ∃ u, RegionsKept s u ∧ RegionsKept (u.claimAtDirectory c r echo) (s.claimAtBlocks c r echo) := by
  have counted : RegionsKept s { s with freeCount := s.freeCount + 1 } := ⟨⟨rfl, rfl, rfl, rfl, rfl, rfl⟩, rfl⟩
  unfold State.claimAtBlocks
  dsimp only
  split
  · split
    · exact ⟨_, counted.trans (State.claimAtBudget_regionsKept _ c r), .refl _⟩
    · exact ⟨_, counted, State.claimAtBudget_regionsKept _ c r⟩
  · exact ⟨s, .refl s, State.claimAtBudget_regionsKept _ c r⟩

theorem State.claimArrives_aroundDirectory (s : State) (x : Station) (r : Region) (n : ClaimNumber) :
    ∃ u, RegionsKept s u ∧
      RegionsKept (u.claimAtDirectory { station := x, number := n } r false) (s.claimArrives x r n false) := by
  obtain ⟨u, before, after⟩ := s.claimAtBlocks_aroundDirectory { station := x, number := n } r false
  refine ⟨u, before, after.trans ?_⟩
  simp only [State.claimArrives, Bool.false_eq_true, if_false]
  split
  · exact ((State.cancel_lineOnly _ _ _).trans (State.noticeContended_lineOnly _ r)).regionsKept
  · exact .refl _

/-- Another station's CLAIM: the directory is what the directory controller makes of it, on the regions as they were. -/
theorem claimArrival_other {t : Time} {x : Station} {r : Region} {n : ClaimNumber} {s : State} (hp : s.powered = true)
    (hn : s.notResyncing) (hx : s.isSelf x = false) :
    ∃ u s', exec (.claimArrival t x r n) s = .next s' ∧ RegionsKept (s.advance t) u ∧
      RegionsKept (u.claimAtDirectory { station := x, number := n } r false) s' := by
  have kept (u : State) : StationKept u (u.claimArrives x r n false) := by
    obtain ⟨v, before, after⟩ := u.claimArrives_aroundDirectory x r n
    exact (before.toStationKept.trans (v.claimAtDirectory_stationKept _ r false)).trans after.toStationKept
  obtain ⟨u, s', next, heard, line⟩ := arrival_other (f := .claim r n) (t := t)
    (deliver := fun own s => s.claimArrives x r n own.isSome) hp hn hx rfl fun u _ => kept u
  obtain ⟨v, before, after⟩ := u.claimArrives_aroundDirectory x r n
  exact ⟨v, s', next, heard.trans before, after.trans line.regionsKept⟩

/-! ## The three events about a SETTLING entry -/

/-- An OBJECT leaves a SETTLING entry's state: it matches no pending claim there (R20, R21). -/
theorem State.objectArrives_settling {s : State} {r : Region} {why : SettleReason} {d : Time}
    (h : (s.entry r).state = .settling why d) (c : Claim) (reason : ObjectReason) (owner : Station) (v : Version) :
    StationKept s (s.objectArrives c r reason owner v) ∧
      ((s.objectArrives c r reason owner v).entry r).state = (s.entry r).state := by
  have cancelled := (s.cancel_lineOnly .reply (Item.isObjectTo c)).regionsKept
  have dropped : StationKept s ((s.cancel .reply (Item.isObjectTo c)).dropOverheard r c) ∧
      (((s.cancel .reply (Item.isObjectTo c)).dropOverheard r c).entry r).state = (s.entry r).state := by
    unfold State.dropOverheard
    dsimp only
    split
    · exact ⟨cancelled.toStationKept.trans (State.setEntry_stationKept _ r _), by simp [cancelled.entry]⟩
    · exact ⟨cancelled.toStationKept, by rw [cancelled.entry]⟩
  have noMatch : (((s.cancel .reply (Item.isObjectTo c)).dropOverheard r c).entry r).claimedAs c = false := by
    simp [Entry.claimedAs, dropped.2, h, EntryState.view]
  simpa [State.objectArrives, noMatch] using dropped

theorem objectArrival_settling {t : Time} {x : Station} {c : Claim} {r : Region} {reason : ObjectReason} {owner : Station}
    {v : Version} {s : State} {why : SettleReason} {d : Time} (hp : s.powered = true) (hn : s.notResyncing)
    (hx : s.isSelf x = false) (hv : reason = .claimed → v.toNat ≤ 255) (h : (s.entry r).state = .settling why d) :
    ∃ s', exec (.objectArrival t x c r reason owner v) s = .next s' ∧ (s'.entry r).state = (s.entry r).state := by
  have still {u : State} (heard : RegionsKept (s.advance t) u) : (u.entry r).state = .settling why d :=
    (congrArg Entry.state (heard.entry r)).trans h
  have good : (Frame.object c r reason owner v).goodForm = true := by simpa [Frame.goodForm, or_iff_not_imp_left] using hv
  obtain ⟨u, s', next, heard, line⟩ := arrival_other (t := t) (x := x)
    (deliver := fun _ u => u.objectArrives c r reason owner v) hp hn hx good
    fun u heard => (State.objectArrives_settling (still heard) c reason owner v).1
  refine ⟨s', next, ?_⟩
  rw [line.entry, (State.objectArrives_settling (still heard) c reason owner v).2, still heard, h]

/-- The settle expiry frees the entry and tells the region; beside the entry it changes the LIU and the command unit only
(R33). -/
theorem settleExpiry_due {t d : Time} {why : SettleReason} {r : Region} {s : State} (hp : s.powered = true)
    (hn : s.notResyncing) (h : (s.entry r).state = .settling why d) (hd : d ≤ max s.now t) :
    ∃ s', exec (.settleExpiry t r) s = .next s' ∧ StationKept (s.advance t) s' ∧ r ∈ s'.host.changeSet ∧
      ∀ q, s'.entry q = if q = r then { s.entry r with state := .free } else s.entry q := by
  have settling : ((s.advance t).entry r).state = .settling why d := h
  have due : (s.advance t).settleExpires r = (s.advance t).expireSettle r := by simp [State.settleExpires, settling, hd]
  have kept : StationKept (s.advance t) ((s.advance t).settleExpires r) := due ▸ State.changeEntry_stationKept _ r _ true
  have told : r ∈ ((s.advance t).settleExpires r).host.changeSet := by
    rw [due]
    exact State.mem_changeSet_changeEntry (by simp [Entry.view, settling, EntryState.view])
  obtain ⟨s', next, line, changeSet⟩ := event_next (f := State.settleExpires r) hp
    (kept.notResyncing (State.advance_notResyncing t hn)) kept.replicas
  refine ⟨s', next, kept.trans line.regionsKept.toStationKept, changeSet ▸ told, fun q => ?_⟩
  rw [line.entry, due]
  exact State.entry_changeEntry _ r q _ true

/-- Settles O53: each clause is the expiry, the CLAIM or the OBJECT at the entry it finds; the competing CLAIM leaves the entry
SETTLING with its deadline, so that the expiry after it is due as before. -/
theorem settleExpiryFreesTheRegion : Obligations.SettleExpiryFreesTheRegion := by
  intro t d why r s hp hn h hd
  refine ⟨?_, fun x c why' owner v hv hx => objectArrival_settling hp hn hx hv h, fun x n hx => ?_⟩
  · obtain ⟨s', expired, kept, told, entries⟩ := settleExpiry_due hp hn h hd
    have freed := (entries r).trans (if_pos rfl)
    refine ⟨s', expired, freed, told, fun q hq => (entries q).trans (if_neg hq), kept.replicas, fun x n hx => ?_⟩
    obtain ⟨u, s'', claimed, heard, decided⟩ := claimArrival_other (t := t) (x := x) (r := r) (n := n)
      (kept.powered.trans hp) (kept.notResyncing (State.advance_notResyncing t hn)) ((kept.isSelf x).trans hx)
    have free : (u.entry r).state = .free := congrArg Entry.state ((heard.entry r).trans freed)
    have now : u.now = max s.now t := by simp [heard.now, kept.now]
    exact ⟨s'', claimed, by rw [decided.entry, State.claimAtDirectory_free free, now]; rfl⟩
  · obtain ⟨u, s₁, claimed, heard, decided⟩ := claimArrival_other (t := t) (x := x) (r := r) (n := n) hp hn hx
    have found : (u.entry r).state = .settling why d := (congrArg Entry.state (heard.entry r)).trans h
    have still : (s₁.entry r).state = .settling why d := by
      rw [decided.entry, State.claimAtDirectory_settling found, found]
    have kept : StationKept (s.advance t) s₁ :=
      (heard.toStationKept.trans (u.claimAtDirectory_stationKept _ r false)).trans decided.toStationKept
    obtain ⟨s₂, expired, -, -, entries⟩ := settleExpiry_due (t := t) (kept.powered.trans hp)
      (kept.notResyncing (State.advance_notResyncing t hn)) still (by simpa [kept.now] using hd)
    have freed := (entries r).trans (if_pos rfl)
    exact ⟨s₁, s₂, claimed, still.trans h.symm, expired, by rw [freed], by rw [freed]⟩

end Sys2Proof.Machine
end

section
/-! SUPPORT. The CRC register bit by bit, and what the receiver checks of a frame's last two bytes (R139, R140). -/

namespace Sys2Proof.Machine

/-! ## The CRC register (R140) -/

/-- A bit shifts the register, and a one at the output adds the lower terms of the generator. -/
theorem crcBit_eq_generator (reg : BitVec 16) (bit : Bool) :
    crcBit reg bit = (reg <<< 1) ^^^ (if (reg.msb ^^ bit) then 2 ^ 12 + 2 ^ 5 + 1 else 0) := by
  unfold crcBit
  split
  · rfl
  · exact BitVec.xor_zero.symm

theorem crcBit_msb (reg : BitVec 16) : crcBit reg reg.msb = reg <<< 1 := by simp [crcBit]

@[simp] theorem crc_nil : crc [] = 0xFFFF := rfl

theorem crc_append (bs cs : List Byte) : crc (bs ++ cs) = (bitsOf cs).foldl crcBit (crc bs) := by
  simp [crc, bitsOf]

/-- The register takes its own bits, the most significant first, by shifting them out. -/
theorem foldl_crcBit_own (reg : BitVec 16) (n : Nat) :
    ((List.range n).map reg.getMsbD).foldl crcBit reg = reg <<< n := by
  induction n with
  | zero => simp
  | succ n ih =>
    have out : crcBit (reg <<< n) (reg.getMsbD n) = (reg <<< n) <<< 1 := by
      rw [← BitVec.msb_shiftLeft, crcBit_msb]
    simp [List.range_succ, ih, out, BitVec.shiftLeft_add]

/-! ## The bytes and bits of a word (R138) -/

theorem word16_eq_of_bytes16 {v : BitVec 16} {hi lo : Byte} (h : [hi, lo] = bytes16 v) : word16 hi lo = v := by
  obtain ⟨rfl, rfl⟩ : hi = v.extractLsb' 8 8 ∧ lo = v.extractLsb' 0 8 := by simpa [bytes16] using h
  exact BitVec.extractLsb'_append_extractLsb'

theorem bitsOf_bytes16 (v : BitVec 16) : bitsOf (bytes16 v) = (List.range 16).map v.getMsbD := by
  simp [bitsOf, bytes16, byteBits, List.range_succ, BitVec.getMsbD]

/-- A run of bytes followed by its own CRC leaves the register at 0. -/
theorem crc_append_own (body : List Byte) : crc (body ++ bytes16 (crc body)) = 0 := by
  rw [crc_append, bitsOf_bytes16, foldl_crcBit_own, BitVec.shiftLeft_eq_zero (by decide), BitVec.ofNat_eq_ofNat]

/-! ## The receiver's check (R139, R140) -/

/-- A frame that is read ends in the CRC of the bytes before. -/
theorem crc_eq_of_readFrame_isSome {body : List Byte} {hi lo : Byte} (h : (readFrame (body ++ [hi, lo])).isSome) :
    word16 hi lo = crc body := by
  match body with
  | [] => simp [readFrame] at h
  | [h0] => simp [readFrame] at h
  | h0 :: h1 :: payload =>
    simp only [List.cons_append, readFrame] at h
    split at h
    next good =>
      obtain ⟨-, counted, checked⟩ := good
      have length : h1.toNat = payload.length := by simpa using counted.symm
      exact word16_eq_of_bytes16 (by simpa [length] using checked)
    next => simp at h

/-- Settles O60: the register's rules bit by bit, the receiver's check, and the register that shifts its own bits out. -/
theorem crcIsComputedOverHeaderAndPayload : Obligations.CrcIsComputedOverHeaderAndPayload := by
  refine ⟨crc_nil, fun bs b => ?_, fun _ _ => rfl, fun body hi lo differs => ?_, crc_append_own⟩
  · simp only [crc_append, bitsOf, List.flatMap_singleton, ← crcBit_eq_generator]
  · exact Option.not_isSome_iff_eq_none.1 fun read => differs (crc_eq_of_readFrame_isSome read)

end Sys2Proof.Machine
end

section
/-! SUPPORT. The record in the posting slot and the completion queue: a state is `SlotSound` when the slot's record stands at
a full queue. One lemma per operation of the model says that the operation keeps this, and is put together as the operation is
from others; the last one is about every command (R161, R163, R203). -/

namespace Sys2Proof.Machine

/-- The completion queue holds at most 16 records, and a record stands in the posting slot only while it is full (R161,
R163). -/
structure SlotSound (s : State) : Prop where
  bounded : s.host.completionQueue.length ≤ 16
  full : ∀ p, s.unit = .posting p → s.host.completionQueue.length = 16

namespace SlotSound

variable {s t : State} {q : QueueId} {i : Item} {r : Region} {x j : Station} {c : Claim} {e : Entry} {u : Update}
  {run : Running} {rec : Reception} {f : PartField} {v : Version} {b tell echo : Bool}

/-! ## The registers beside the command unit and the completion queue -/

theorem of_eq (h : SlotSound s) (unit : t.unit = s.unit) (queue : t.host.completionQueue = s.host.completionQueue) :
    SlotSound t :=
  ⟨queue ▸ h.bounded, unit ▸ queue ▸ h.full⟩

/-- Either branch of a step that depends on a condition. -/
theorem ite {p : Prop} {_ : Decidable p} (h : SlotSound s) (k : SlotSound t) : SlotSound (if p then s else t) := by
  split
  · exact h
  · exact k

/-- A step that is made under a condition only. -/
theorem ifSo {p : Prop} {_ : Decidable p} (h : SlotSound s) (step : SlotSound s → SlotSound t) :
    SlotSound (if p then t else s) := (step h).ite h

theorem foldl {α : Type} {f : State → α → State} {xs : List α} (h : SlotSound s)
    (step : ∀ {u a}, SlotSound u → SlotSound (f u a)) : SlotSound (xs.foldl f s) := by
  induction xs generalizing s with
  | nil => exact h
  | cons a rest ih => exact ih (step h)

theorem advance {n : Time} (h : SlotSound s) : SlotSound (s.advance n) := h.of_eq rfl rfl
theorem setEntry (h : SlotSound s) : SlotSound (s.setEntry r e) := h.of_eq rfl rfl
theorem setReplica {rep : Replica} (h : SlotSound s) : SlotSound (s.setReplica r rep) := h.of_eq rfl rfl
theorem setMember {m : MemberEntry} (h : SlotSound s) : SlotSound (s.setMember x m) := h.of_eq rfl rfl
theorem withMembership {f : Membership → Membership} (h : SlotSound s) : SlotSound (s.withMembership f) := h.of_eq rfl rfl
theorem withTransfer {f : Transfer → Transfer} (h : SlotSound s) : SlotSound (s.withTransfer f) := h.of_eq rfl rfl
theorem withLiu {f : Liu → Liu} (h : SlotSound s) : SlotSound (s.withLiu f) := h.of_eq rfl rfl
theorem withBudget {es : List BudgetEntry} (h : SlotSound s) : SlotSound { s with budget := es } := h.of_eq rfl rfl
theorem withFreeCount {n : Nat} (h : SlotSound s) : SlotSound { s with freeCount := n } := h.of_eq rfl rfl
theorem cancel {p : Item → Bool} (h : SlotSound s) : SlotSound (s.cancel q p) := h.withLiu
theorem addChange (h : SlotSound s) : SlotSound (s.addChange r) := h.of_eq rfl rfl
theorem addChanges {rs : List Region} (h : SlotSound s) : SlotSound (s.addChanges rs) := h.foldl addChange
theorem raiseObjectionsWithdrawn (h : SlotSound s) : SlotSound s.raiseObjectionsWithdrawn := h.of_eq rfl rfl
theorem raiseFrameErrors (h : SlotSound s) : SlotSound s.raiseFrameErrors := h.of_eq rfl rfl
theorem raiseTxFailures (h : SlotSound s) : SlotSound s.raiseTxFailures := h.of_eq rfl rfl
theorem raiseVersionGaps (h : SlotSound s) : SlotSound s.raiseVersionGaps := h.of_eq rfl rfl
theorem raiseForeignUpdates (h : SlotSound s) : SlotSound s.raiseForeignUpdates := h.of_eq rfl rfl
theorem raiseTransfersAbandoned (h : SlotSound s) : SlotSound s.raiseTransfersAbandoned := h.of_eq rfl rfl
theorem withHost {g : HostLink → HostLink} (h : SlotSound s)
    (kept : ∀ k, (g k).completionQueue = k.completionQueue := by exact fun _ => rfl) : SlotSound (s.withHost g) :=
  h.of_eq rfl (kept _)
theorem beginAnswered {a : Answer} (h : SlotSound s) : SlotSound (s.beginAnswered a) := h.of_eq rfl rfl
theorem begin {tr : Transaction} {a : Option Answer} (h : SlotSound s) : SlotSound (s.begin tr a) := h.of_eq rfl rfl
theorem beginRead {tr : Transaction} {bs : List Byte} (h : SlotSound s) : SlotSound (s.beginRead tr bs) := h.of_eq rfl rfl

/-! ## The LIU's queues (R154, R155) -/

theorem append (h : SlotSound s) : SlotSound (s.append q i) := by
  unfold State.append
  split
  · exact h.of_eq rfl rfl
  · exact h.withLiu

theorem placeWaiting (h : SlotSound s) : SlotSound (s.placeWaiting q) := by
  unfold State.placeWaiting
  split
  · exact h
  · exact h.withLiu.append.ite h

theorem placeAllWaiting (h : SlotSound s) : SlotSound (s.placeAllWaiting q) := h.foldl placeWaiting

theorem place (h : SlotSound s) : SlotSound (s.place q i) := h.placeAllWaiting.append.ite h.placeAllWaiting.withLiu

theorem placeObject (h : SlotSound s) : SlotSound (s.placeObject i) :=
  h.placeAllWaiting.append.ite h.placeAllWaiting.raiseObjectionsWithdrawn

theorem settleWaiting (h : SlotSound s) : SlotSound s.settleWaiting := h.placeAllWaiting.placeAllWaiting

/-! ## Directory entries -/

theorem changeEntry (h : SlotSound s) : SlotSound (s.changeEntry r e tell) := h.setEntry.addChange.ite h.setEntry

theorem settle {why : SettleReason} (h : SlotSound s) : SlotSound (s.settle r why x tell) :=
  h.changeEntry.cancel.ite h.changeEntry

/-! ## The command unit (R161 to R193) -/

/-- A command goes into execution, and with it nothing stands in the posting slot. -/
theorem execute (h : SlotSound s) : SlotSound { s with unit := .executing run } := ⟨h.bounded, by simp⟩

theorem proceed {p : Progress} (h : SlotSound s) : SlotSound (s.proceed run p) := h.execute

/-- A completion record goes into the posting slot only when the queue is full (R161). -/
theorem of_post {k : Completion} (bounded : s.host.completionQueue.length ≤ 16) : SlotSound (s.post k) := by
  unfold State.post
  split
  next room => exact ⟨by simpa [Config.completionQueueLimit] using room, by simp⟩
  next noRoom => exact ⟨bounded, fun _ _ => Nat.le_antisymm bounded (Nat.not_lt.1 noRoom)⟩

theorem post {k : Completion} (h : SlotSound s) : SlotSound (s.post k) := of_post h.bounded

theorem endCommand {status : Status} {reason : Reason} {n : Nat} {p : Int} {found exhausted released : Bool}
    (h : SlotSound s) : SlotSound (s.endCommand run status reason v n p found exhausted released) := h.post

theorem openSetback {clock : WaitClock} {reason : Reason} (h : SlotSound s) :
    SlotSound (s.openSetback run clock reason) := by
  refine h.endCommand.ite ?_
  cases clock with
  | noWait => exact h.endCommand
  | till _ => exact h.proceed
  | expired => exact h.endCommand

theorem attemptClaim {clock : WaitClock} {before : Reason} (h : SlotSound s) :
    SlotSound (s.attemptClaim run clock before) :=
  h.openSetback.ite (h.openSetback.ite h.place.proceed)

theorem placeChunk {source : Option Region} {done : Nat} (h : SlotSound s) :
    SlotSound (s.placeChunk run source done b) := h.place.proceed

theorem noticeContended (h : SlotSound s) : SlotSound (s.noticeContended r) := by
  unfold State.noticeContended
  split
  · split
    · exact h.openSetback.ite h
    · exact h
  · exact h

theorem noticeBudgetFull (h : SlotSound s) : SlotSound (s.noticeBudgetFull r) := by
  unfold State.noticeBudgetFull
  split
  · split
    · exact h.openSetback.ite h
    · exact h
  · exact h

theorem noticeClaimPending (h : SlotSound s) : SlotSound (s.noticeClaimPending r) := by
  unfold State.noticeClaimPending
  split
  · split
    · exact h.proceed.ite h
    · exact h
  · exact h

theorem noticeObjected {reason : ObjectReason} (h : SlotSound s) : SlotSound (s.noticeObjected r reason) := by
  unfold State.noticeObjected
  split
  · split
    · exact h.openSetback.ite h
    · exact h
  · exact h

theorem noticeConfirmed (h : SlotSound s) : SlotSound (s.noticeConfirmed r v) := by
  unfold State.noticeConfirmed
  split
  · split
    · exact (h.place.endCommand.ite h.endCommand).ite h
    · exact h
  · exact h

theorem noticeRegionNotCurrent (h : SlotSound s) : SlotSound (s.noticeRegionNotCurrent r) := by
  unfold State.noticeRegionNotCurrent
  split
  · split
    · exact h.endCommand.ite h
    · exact h.cancel.endCommand.ite h
    · exact h.cancel.endCommand.ite (h.cancel.endCommand.ite h)
    · exact h.endCommand.ite h
    all_goals exact h
  · exact h

theorem noticeUpdateApplied (h : SlotSound s) : SlotSound (s.noticeUpdateApplied r x) := by
  unfold State.noticeUpdateApplied
  split
  · split
    · exact h.proceed.ite h
    · exact h.proceed.ite h
    · exact h
  · exact h

theorem noticeLeftMember (h : SlotSound s) : SlotSound s.noticeLeftMember := by
  unfold State.noticeLeftMember
  split
  · split
    · exact h
    · exact h.endCommand
  · exact h

theorem noticeLapsed (h : SlotSound s) : SlotSound (s.noticeLapsed r) := by
  unfold State.noticeLapsed
  split
  · split
    iterate 4 exact h.endCommand.ite h
    all_goals exact h
  · exact h

theorem noticeNoLongerHeld {cause : HoldingEnd} (h : SlotSound s) : SlotSound (s.noticeNoLongerHeld r cause) := by
  unfold State.noticeNoLongerHeld
  split
  · refine ite ?_ h
    split
    · cases cause <;> exact h.endCommand
    iterate 3 exact h.ite h.endCommand
    all_goals exact h
  · exact h

theorem noticeUpdateRefused {refused : Region} (h : SlotSound s) : SlotSound (s.noticeUpdateRefused r refused) := by
  unfold State.noticeUpdateRefused
  split
  · refine ite ?_ h
    split
    · exact h.endCommand
    · exact h.endCommand
    · exact h
  · exact h

theorem updateEchoed (h : SlotSound s) : SlotSound (s.updateEchoed u) := by
  unfold State.updateEchoed
  split
  · refine ite ?_ h
    split
    · exact h.endCommand
    · exact h.endCommand.ite (h.endCommand.ite (h.endCommand.ite h.placeChunk))
    · exact h
  · exact h

theorem renewEchoed (h : SlotSound s) : SlotSound (s.renewEchoed r) := by
  unfold State.renewEchoed
  split
  · refine ite ?_ h
    split
    · exact h.endCommand
    · exact h
  · exact h

theorem commandEndWithoutArrival (h : SlotSound s) : SlotSound (s.commandEndWithoutArrival run) := by
  have aborted : SlotSound (if run.abort then (s.cancelCommandFrame run).endCommand run .aborted else s) :=
    h.cancel.endCommand.ite h
  unfold State.commandEndWithoutArrival
  split
  · exact aborted
  · exact aborted
  iterate 3 exact h.cancel.endCommand.ite aborted
  all_goals exact h

theorem abortRunning (h : SlotSound s) : SlotSound s.abortRunning := by
  unfold State.abortRunning
  split
  · split
    · exact h.endCommand
    · exact h.execute.ite h.cancel.endCommand
    · exact h.execute
    iterate 4 exact h.execute.ite h.cancel.endCommand
    · exact h.endCommand
  · exact h

/-! ## Claims (spec/01, spec/02) -/

theorem noteOverheard (h : SlotSound s) : SlotSound (s.noteOverheard r c) := h.ite h.setEntry

theorem claimAtDirectory (h : SlotSound s) : SlotSound (s.claimAtDirectory c r echo) := by
  have objected : SlotSound (if s.objectsTo c.station r then s.placeObject (.object c r false s.now) else s) :=
    h.placeObject.ite h
  unfold State.claimAtDirectory
  dsimp only
  split
  · exact h
  · exact h.changeEntry
  · exact objected
  · exact objected.noteOverheard
  · exact objected.noteOverheard

theorem claimAtBudget (h : SlotSound s) : SlotSound (s.claimAtBudget c r) :=
  ite (h.withBudget.ite (h.withBudget.ifSo placeObject)) h

theorem claimAtBlocks (h : SlotSound s) : SlotSound (s.claimAtBlocks c r echo) :=
  ite (h.withFreeCount.claimAtBudget.claimAtDirectory.ite h.withFreeCount.claimAtDirectory.claimAtBudget)
    h.claimAtDirectory.claimAtBudget

theorem claimArrives {n : ClaimNumber} (h : SlotSound s) : SlotSound (s.claimArrives x r n echo) :=
  ite (h.claimAtBlocks.noticeClaimPending.ite h.claimAtBlocks.noticeContended)
    (h.claimAtBlocks.cancel.noticeContended.ite h.claimAtBlocks)

theorem dropOverheard (h : SlotSound s) : SlotSound (s.dropOverheard r c) := h.setEntry.ite h

theorem confirm (h : SlotSound s) : SlotSound (s.confirm r c) :=
  ite (h.changeEntry.noticeConfirmed.place.ite h.changeEntry.noticeConfirmed) h.changeEntry

theorem adopt {o : Overheard} (h : SlotSound s) : SlotSound (s.adopt r o) :=
  h.setEntry.addChange.cancel.ite h.setEntry.addChange

theorem expireLease (h : SlotSound s) : SlotSound (s.expireLease r x) := h.settle.noticeNoLongerHeld.ite h.settle

theorem lapse {lease : Time} (h : SlotSound s) : SlotSound (s.lapse r x lease) :=
  h.setEntry.cancel.noticeLapsed.ite h.setEntry.cancel.noticeLapsed.place

theorem restartLease (h : SlotSound s) : SlotSound (s.restartLease r) := by
  unfold State.restartLease
  split
  · exact h.setEntry
  · exact h

/-! ## Replicas (spec/03) -/

theorem changeCondition {k : Condition} (h : SlotSound s) : SlotSound (s.changeCondition r k) := by
  have changed : SlotSound ((s.setReplica r { s.replica r with condition := k }).addChange r) := h.setReplica.addChange
  have moved {f : Transfer → Transfer} := changed.withTransfer (f := f)
  exact h.ite (ifSo (ite (changed.ite moved) (moved.ite changed)) noticeRegionNotCurrent)

theorem versionGap (h : SlotSound s) : SlotSound (s.versionGap r) := h.changeCondition.raiseVersionGaps

theorem checkVersion (h : SlotSound s) : SlotSound (s.checkVersion r v) := h.versionGap.ite h

theorem returnLost (h : SlotSound s) : SlotSound (s.returnLost r) := h.setReplica.changeCondition.ite h

theorem abandonReception (h : SlotSound s) : SlotSound s.abandonReception := by
  unfold State.abandonReception
  split
  · exact h
  · split
    · exact h.withTransfer.raiseTransfersAbandoned.withTransfer
    · exact h.withTransfer.raiseTransfersAbandoned

theorem keepForCatchUp (h : SlotSound s) : SlotSound (s.keepForCatchUp x u) := by
  unfold State.keepForCatchUp
  split
  · exact h
  · exact h.withTransfer.ite h.abandonReception

theorem updateAtCurrent (h : SlotSound s) : SlotSound (s.updateAtCurrent x u echo) :=
  ite (h.setReplica.ite h.setReplica.addChange).noticeUpdateApplied h.versionGap

theorem updateAtReplica {answer : OwnerAnswer} (h : SlotSound s) : SlotSound (s.updateAtReplica answer x u echo) := by
  cases answer with
  | unknown => exact h
  | no => exact (h.changeCondition.ite h).raiseForeignUpdates
  | yes => exact h.updateAtCurrent.ite (h.keepForCatchUp.ite (h.returnLost.ite h))

theorem updateAtDirectory (h : SlotSound s) : SlotSound (s.updateAtDirectory x u echo) :=
  h.restartLease.settle.ite h.restartLease

theorem updateArrives (h : SlotSound s) : SlotSound (s.updateArrives x u echo) :=
  ifSo (ifSo (h.ifSo updateAtDirectory).updateAtReplica updateEchoed) noticeNoLongerHeld

theorem renewArrives (h : SlotSound s) : SlotSound (s.renewArrives x r echo) := by
  unfold State.renewArrives
  refine ifSo ?_ renewEchoed
  split
  · exact h.restartLease
  · exact h.raiseForeignUpdates
  · exact h

theorem releaseArrives (h : SlotSound s) : SlotSound (s.releaseArrives x r v echo) :=
  ite (h.settle.checkVersion.returnLost.noticeNoLongerHeld.ite h.settle.checkVersion.returnLost) h

theorem objectArrives {reason : ObjectReason} (h : SlotSound s) : SlotSound (s.objectArrives c r reason x v) := by
  have dropped : SlotSound ((s.cancel .reply (Item.isObjectTo c)).dropOverheard r c) := h.cancel.dropOverheard
  unfold State.objectArrives
  refine ite (ifSo ?_ noticeObjected) dropped
  split
  · exact dropped.setEntry.addChange.checkVersion
  · exact dropped.setEntry.addChange.checkVersion
  · exact dropped.setEntry.addChange
  · exact dropped.setEntry.addChange

/-! ## Transfers (spec/04, spec/06) -/

theorem startRefresh (h : SlotSound s) : SlotSound (s.startRefresh r x) := h.withTransfer.place

theorem syncGoOn {n : Nat} (h : SlotSound s) : SlotSound (s.syncGoOn j n) := by
  unfold State.syncGoOn
  split
  · exact h.withTransfer.place
  · exact h.withTransfer.place

theorem serveNext (h : SlotSound s) : SlotSound s.serveNext := by
  unfold State.serveNext
  refine h.ite ?_
  split
  · exact h.startRefresh
  · exact h.syncGoOn
  · exact h.withTransfer.place
  · exact h

theorem endJobs {p : Job → Bool} (h : SlotSound s) : SlotSound (s.endJobs p) := h.withTransfer.serveNext

theorem dropJobs {p : Job → Bool} {frames : Item → Bool} (h : SlotSound s) : SlotSound (s.dropJobs p frames) :=
  h.withLiu.endJobs

theorem afterRegion {n : Nat} (h : SlotSound s) : SlotSound (s.afterRegion j n) := by
  unfold State.afterRegion
  split
  · exact h.withTransfer.startRefresh
  · exact h.syncGoOn

theorem refreshPartEchoed (h : SlotSound s) : SlotSound (s.refreshPartEchoed f) :=
  h.ifSo fun h => h.endJobs.ite h.withTransfer.place

theorem snapPartEchoed (h : SlotSound s) : SlotSound (s.snapPartEchoed f) :=
  h.ifSo fun h => h.afterRegion.ite h.withTransfer.place

theorem dirEchoed {g : Group} (h : SlotSound s) : SlotSound (s.dirEchoed j g) :=
  h.ifSo fun h => h.syncGoOn.ite h.withTransfer.place

theorem syncEndEchoed (h : SlotSound s) : SlotSound (s.syncEndEchoed j) := h.ifSo endJobs

theorem suppressRefresh (h : SlotSound s) : SlotSound (s.suppressRefresh f) := h.ifSo dropJobs

theorem suppressSync (h : SlotSound s) : SlotSound (s.suppressSync j) := h.ifSo dropJobs

theorem dropSync (h : SlotSound s) : SlotSound (s.dropSync j) := h.ifSo dropJobs

theorem dropJobsFor (h : SlotSound s) : SlotSound (s.dropJobsFor x) := h.ifSo dropJobs

theorem refreshRequested (h : SlotSound s) : SlotSound (s.refreshRequested r x) := h.ifSo fun h => h.withTransfer.serveNext

theorem syncRequested (h : SlotSound s) : SlotSound (s.syncRequested j) := h.ifSo fun h => h.withTransfer.serveNext

theorem openRefresh (h : SlotSound s) : SlotSound (s.openRefresh x f) := h.ifSo fun h => h.withTransfer.withTransfer.cancel

theorem openSnap (h : SlotSound s) : SlotSound (s.openSnap x f) := h.ifSo withTransfer

theorem install {m : Memory} (h : SlotSound s) : SlotSound (s.install rec m) :=
  h.withTransfer.setReplica.changeCondition.addChange

theorem replayCatchUp {es : List CatchUp} (h : SlotSound s) : SlotSound (s.replayCatchUp r v es) := by
  induction es generalizing s with
  | nil => exact h
  | cons e rest ih => exact (ih h).ite (ite (ih h.setReplica.addChange) h.versionGap)

theorem partAtOpen {kind : TransferKind} (h : SlotSound s) : SlotSound (s.partAtOpen rec kind x f).1 := by
  unfold State.partAtOpen
  split
  · split
    · dsimp only
      split
      · exact h.install
      · dsimp only
        exact h.withTransfer
    · exact h.abandonReception
  · exact h

theorem partReceived {kind : TransferKind} (h : SlotSound s) : SlotSound (s.partReceived kind x f).1 := by
  unfold State.partReceived
  split
  · split
    · exact h.partAtOpen
    · exact h
  · split
    · cases kind with
      | refresh => exact h.openRefresh
      | snap => exact h.openSnap
    · exact h

theorem requestRepair (h : SlotSound s) : SlotSound s.requestRepair := by
  unfold State.requestRepair
  dsimp only
  split
  · exact h.placeAllWaiting.ifSo fun h => h.append.withTransfer
  · exact h.placeAllWaiting

theorem refreshReqEchoed (h : SlotSound s) : SlotSound s.refreshReqEchoed := h.ifSo withTransfer

theorem refreshTimedOut (h : SlotSound s) : SlotSound s.refreshTimedOut := by
  unfold State.refreshTimedOut
  dsimp only
  split
  · exact h.withTransfer.withTransfer
  · exact h.withTransfer.setReplica.place.withTransfer.ite h.withTransfer.setReplica.changeCondition.withTransfer

theorem emptyJobs (h : SlotSound s) : SlotSound s.emptyJobs := h.of_eq rfl rfl

theorem emptyTransfer (h : SlotSound s) : SlotSound s.emptyTransfer := by
  unfold State.emptyTransfer
  exact h.emptyJobs.withTransfer.withTransfer

/-! ## The station states (R96 to R125) -/

theorem resetDirectory (h : SlotSound s) : SlotSound (s.resetDirectory e) :=
  have reset : SlotSound { s with directory := Vector.replicate 64 e } := h.of_eq rfl rfl
  (reset.withLiu (f := fun _ => _)).addChanges

theorem unsyncReplicas (h : SlotSound s) : SlotSound s.unsyncReplicas := by
  have unsynced (reps : Vector Replica 64) : SlotSound { s with replicas := reps } := h.of_eq rfl rfl
  unfold State.unsyncReplicas
  dsimp only
  split
  · exact (unsynced _).addChanges.ifSo noticeRegionNotCurrent
  · exact (unsynced _).addChanges

theorem freshReplicas (h : SlotSound s) : SlotSound s.freshReplicas :=
  have fresh (reps : Vector Replica 64) : SlotSound { s with replicas := reps } := h.of_eq rfl rfl
  (fresh _).addChanges

theorem clearAttempts (h : SlotSound s) : SlotSound s.clearAttempts := h.of_eq rfl rfl

theorem withdrawQueues (h : SlotSound s) : SlotSound s.withdrawQueues := h.of_eq rfl rfl

theorem setStation {st : StationState} (h : SlotSound s) : SlotSound (s.setStation st) := h.of_eq rfl rfl

theorem setOwnEntry {p : Presence} (h : SlotSound s) : SlotSound (s.setOwnEntry p) := by
  unfold State.setOwnEntry
  split
  · exact h
  · exact h.setMember

theorem clearTable (h : SlotSound s) : SlotSound s.clearTable := h.withMembership

theorem enterListening (h : SlotSound s) : SlotSound s.enterListening := h.setOwnEntry.withMembership.withLiu.setStation

theorem failJoining (h : SlotSound s) : SlotSound s.failJoining :=
  h.resetDirectory.emptyTransfer.clearAttempts.withdrawQueues.withMembership.enterListening

theorem placeAttempt (h : SlotSound s) : SlotSound s.placeAttempt := h.withMembership.cancel.place

theorem enterJoining (h : SlotSound s) : SlotSound s.enterJoining := by
  unfold State.enterJoining
  refine placeAttempt (setStation ?_)
  exact (h.ifSo noticeLeftMember).setOwnEntry.withMembership.withLiu.resetDirectory.unsyncReplicas.emptyTransfer

theorem aloneStart (h : SlotSound s) : SlotSound s.aloneStart :=
  h.resetDirectory.freshReplicas.withTransfer.setOwnEntry.withMembership.setStation

theorem staleUnsynced (h : SlotSound s) : SlotSound s.staleUnsynced := h.foldl changeCondition

theorem joined (h : SlotSound s) : SlotSound s.joined := h.staleUnsynced.setOwnEntry.withMembership.setStation

theorem enterLeaving {cause : LeaveCause} (h : SlotSound s) : SlotSound (s.enterLeaving cause) := by
  unfold State.enterLeaving
  exact (h.noticeLeftMember.withLiu.withTransfer.withMembership.foldl place).setStation

theorem leaveLine (h : SlotSound s) : SlotSound s.leaveLine := by
  have left : SlotSound (if s.station.participates then s.noticeLeftMember else s) := h.ifSo noticeLeftMember
  unfold State.leaveLine
  refine withLiu (withMembership (withBudget ?_))
  exact left.clearTable.resetDirectory.unsyncReplicas.emptyTransfer.withdrawQueues

theorem enterIsolated (h : SlotSound s) : SlotSound s.enterIsolated := h.leaveLine.withMembership.setStation

theorem enterDetached (h : SlotSound s) : SlotSound s.enterDetached := h.leaveLine.withMembership.setStation

theorem duplicateNumber (h : SlotSound s) : SlotSound s.duplicateNumber := h.ifSo fun h => h.withMembership.enterDetached

theorem joinFails (h : SlotSound s) : SlotSound (s.joinFails b) := by
  unfold State.joinFails
  split
  · exact h
  · exact h.withMembership.placeAttempt.ite h.failJoining

theorem departRegion {why : SettleReason} (h : SlotSound s) : SlotSound (s.departRegion x why r) := by
  unfold State.departRegion
  refine ifSo ?_ setEntry
  split
  · exact h.ifSo settle
  · exact h.ifSo changeEntry
  · exact h

theorem stationGone {why : SettleReason} (h : SlotSound s) : SlotSound (s.stationGone x why) := by
  have departed : SlotSound (allRegions.foldl (State.departRegion x why) s) := h.foldl departRegion
  unfold State.stationGone
  exact ifSo (departed.cancel.dropJobsFor.ifSo abandonReception) joinFails

/-! ## The conclusion of an event (R54, R112, R170) -/

theorem endReleases (h : SlotSound s) : SlotSound s.endReleases := by
  unfold State.endReleases
  refine ite ?_ h
  split
  · exact h.enterJoining
  · exact h.place
  · exact h.place

theorem requestResync {n : Nat} (h : SlotSound s) : SlotSound (s.requestResync t n) :=
  h.ifSo fun h => h.withMembership.enterLeaving

theorem retryOpen (h : SlotSound s) : SlotSound (s.retryOpen t) := by
  unfold State.retryOpen
  split
  · split
    · exact h.ifSo fun h => h.attemptClaim.ite h.endCommand
    · exact h
  · exact h

theorem concludeFrom {n : Nat} (h : SlotSound s) : SlotSound (s.concludeFrom t n) := h.requestResync.retryOpen.endReleases

theorem conclude (h : SlotSound s) : SlotSound (s.conclude t) := h.concludeFrom

/-! ## The line's rows (R143 to R155) -/

theorem dropHead (h : SlotSound s) : SlotSound (s.dropHead q) := h.withLiu

theorem keepOrWithdraw (h : SlotSound s) : SlotSound (s.keepOrWithdraw q) := by
  unfold State.keepOrWithdraw
  split
  · exact h.dropHead.ite (h.dropHead.raiseObjectionsWithdrawn.ite h)
  · exact h

theorem reportEnd {item : Option Item} (h : SlotSound s) : SlotSound (s.reportEnd item) := by
  unfold State.reportEnd
  split
  · exact h.ifSo commandEndWithoutArrival
  · exact h

theorem isolateAtLimit (h : SlotSound s) : SlotSound s.isolateAtLimit := h.ifSo enterIsolated

theorem transmitFailure {after : Transmitter} (h : SlotSound s) : SlotSound (s.transmitFailure q after) := by
  have kept {g : Liu → Liu} := (h.raiseTxFailures.withLiu (f := g)).keepOrWithdraw (q := q)
  exact ite (kept.withFreeCount.reportEnd.isolateAtLimit.ite kept.withFreeCount.isolateAtLimit.reportEnd) kept.reportEnd

theorem faultyFrameEnds (h : SlotSound s) : SlotSound s.faultyFrameEnds := by
  have heard : SlotSound s.faultHeard := h.withLiu
  unfold State.faultyFrameEnds
  split
  · exact heard.ite heard.raiseFrameErrors
  · exact heard.transmitFailure
  · exact heard

theorem collide (h : SlotSound s) : SlotSound s.collide := by
  unfold State.collide
  split
  · exact h.transmitFailure
  all_goals exact h

theorem endJam (h : SlotSound s) : SlotSound s.endJam := by
  unfold State.endJam
  split
  · exact h.ifSo withLiu
  all_goals exact h

theorem skipPartZero {kind : TransferKind} (h : SlotSound s) : SlotSound (s.skipPartZero kind x r) := by
  refine ite ?_ h
  cases kind with
  | refresh => exact h.endJobs
  | snap => exact h.syncGoOn

theorem fillBuffer (h : SlotSound s) : SlotSound (s.fillBuffer r) := h.withTransfer

theorem tryBegin {y : Queued} (h : SlotSound s) : SlotSound (s.tryBegin x q y).1 := by
  obtain ⟨item, _, _⟩ := y
  unfold State.tryBegin
  cases item with
  | claim =>
    dsimp only
    split
    · exact h
    · exact h.dropHead.noticeBudgetFull
  | object _ _ budget =>
    cases budget with
    | true => exact h
    | false =>
      dsimp only
      split
      · exact h
      · exact h.dropHead.raiseObjectionsWithdrawn
  | partZero =>
    dsimp only
    split
    · exact h.fillBuffer
    · split
      · exact h.dropHead
      · exact h.dropHead.skipPartZero
  | update =>
    dsimp only
    split
    · exact h
    · exact h.dropHead.noticeUpdateRefused
  | _ => exact h

theorem chooseFrame {n : Nat} (h : SlotSound s) : SlotSound (State.chooseFrame x n s) := by
  induction n generalizing s with
  | zero => exact h
  | succ n ih =>
    unfold State.chooseFrame
    split
    · exact h
    next q y _ =>
      have tried := h.tryBegin (x := x) (q := q) (y := y)
      split
      next begun =>
        rw [begun] at tried
        exact tried.withLiu
      next withdrawn =>
        rw [withdrawn] at tried
        exact ih tried.settleWaiting

theorem access (h : SlotSound s) : SlotSound s.access := by
  unfold State.access
  dsimp only
  split
  · exact h.settleWaiting.ifSo chooseFrame
  · exact h.settleWaiting

/-! ## The arrivals (R142) -/

theorem lineHeard (h : SlotSound s) : SlotSound (s.lineHeard x) := h.withLiu

theorem leaveQueue (h : SlotSound s) : SlotSound s.leaveQueue := h.withLiu

theorem ownHeard (h : SlotSound s) : SlotSound (s.ownHeard x) := by
  unfold State.ownHeard
  dsimp only
  split
  · exact (h.ite h.setMember).withMembership.cancel
  · exact (h.ite h.setMember).withMembership.cancel
  · exact (h.ite h.setMember).withMembership.cancel
  all_goals exact h.ite h.setMember

theorem otherHeard {g : Frame} (h : SlotSound s) : SlotSound (s.otherHeard x g) := by
  unfold State.otherHeard
  exact ite ((h.setMember.ifSo withMembership).ifSo dropSync) h

theorem frameArrives {g : Frame} {deliver : Option Queued → State → State}
    (delivers : ∀ {own u}, SlotSound u → SlotSound (deliver own u)) (h : SlotSound s) :
    SlotSound (s.frameArrives x g deliver) := by
  unfold State.frameArrives
  dsimp only
  split
  · exact delivers h.lineHeard.leaveQueue.ownHeard
  · exact h.lineHeard.duplicateNumber.ite (delivers h.lineHeard.otherHeard)

theorem presenceCheck {g : Frame} (h : SlotSound s) : SlotSound (s.presenceCheck x g) := by
  unfold State.presenceCheck
  exact (h.foldl settle).ite h

theorem receivePart {kind : TransferKind} (h : SlotSound s) : SlotSound (s.receivePart kind x f).1 :=
  h.partReceived.replayCatchUp

theorem restartGap (h : SlotSound s) : SlotSound (s.restartGap x j) := h.ifSo withMembership

theorem jobEchoed {y : Queued} {goOn : State → State} (goes : ∀ {u}, SlotSound u → SlotSound (goOn u))
    (h : SlotSound s) : SlotSound (s.jobEchoed y goOn) := h.ite (goes h)

theorem syncEchoed {y : Queued} {goOn : State → State} (goes : ∀ {u}, SlotSound u → SlotSound (goOn u))
    (h : SlotSound s) : SlotSound (s.syncEchoed y x j goOn) := (h.jobEchoed goes).restartGap

theorem joinReqEchoed (h : SlotSound s) : SlotSound (s.joinReqEchoed i) := h.ite h.withMembership

theorem joinRequested (h : SlotSound s) : SlotSound (s.joinRequested j) := h.joinFails.ite h.syncRequested

theorem installEntry {d : DirField} (h : SlotSound s) : SlotSound (s.installEntry r d) := h.changeEntry.checkVersion

theorem installGroup {g : Group} {es : List DirField} (h : SlotSound s) : SlotSound (s.installGroup g es) :=
  h.foldl installEntry

theorem dirReceived {g : Group} {es : List DirField} (h : SlotSound s) : SlotSound (s.dirReceived x g es) :=
  h.withMembership.installGroup.ite (h.ifSo fun h => h.withMembership.installGroup)

theorem dirArrives {g : Group} {es : List DirField} (h : SlotSound s) : SlotSound (s.dirArrives x j g es) :=
  h.suppressSync.restartGap.ifSo dirReceived

theorem syncEndReceived (h : SlotSound s) : SlotSound s.syncEndReceived :=
  h.abandonReception.joined.ite h.abandonReception.joinFails

theorem syncEndArrives (h : SlotSound s) : SlotSound (s.syncEndArrives x j) :=
  h.suppressSync.restartGap.ifSo syncEndReceived

theorem leaveEchoed (h : SlotSound s) : SlotSound s.leaveEchoed := h.ifSo enterDetached

theorem leaveArrives (h : SlotSound s) : SlotSound (s.leaveArrives x) := h.ifSo stationGone

/-! ## The host's rows (spec/10) -/

theorem writeConfiguration {k : Configuration} (h : SlotSound s) : SlotSound (s.writeConfiguration k) := h.withHost

theorem configure {station lease limit mask : Byte} (h : SlotSound s) :
    SlotSound (s.configure station lease limit mask) := by
  unfold State.configure
  split
  · exact h.beginAnswered.writeConfiguration.enterListening
  · exact h.begin

theorem completeStatus (h : SlotSound s) : SlotSound s.completeStatus := by
  unfold State.completeStatus
  split
  · exact h.of_eq rfl rfl
  · exact h

theorem putCommand {bs : List Byte} (h : SlotSound s) : SlotSound (s.putCommand bs) := by
  unfold State.putCommand
  split
  · exact h.begin
  · exact h.beginAnswered.withHost.ite h.beginAnswered

theorem takeCompletion (h : SlotSound s) : SlotSound s.takeCompletion := by
  unfold State.takeCompletion
  split
  · exact h.beginRead
  · exact h.beginRead

/-- The slot's record stays in the slot only when the queue is full (R163). -/
theorem of_movePosted (bounded : s.host.completionQueue.length ≤ 16) : SlotSound s.movePosted := by
  unfold State.movePosted
  split
  next => exact of_post bounded
  next idle => exact ⟨bounded, by simp [idle]⟩
  next executing => exact ⟨bounded, by simp [executing]⟩

/-- The head record's removal makes room for the slot's record, which moves in with it (R163, R203). -/
theorem completeCompletion (h : SlotSound s) : SlotSound s.completeCompletion := by
  have bounded := h.bounded
  unfold State.completeCompletion
  split
  · exact of_movePosted (by simp only [State.withHost_host, List.length_tail]; omega)
  · exact h

theorem completeChanges (h : SlotSound s) : SlotSound s.completeChanges := by
  unfold State.completeChanges
  split
  · exact h.of_eq rfl rfl
  · exact h

theorem completeCounters (h : SlotSound s) : SlotSound s.completeCounters := by
  unfold State.completeCounters
  split
  · exact h.of_eq rfl rfl
  · exact h

theorem abort (h : SlotSound s) : SlotSound s.abort := h.beginAnswered.abortRunning

theorem attach (h : SlotSound s) : SlotSound s.attach := h.beginAnswered.enterListening.ite h.beginAnswered

theorem detach (h : SlotSound s) : SlotSound s.detach := by
  unfold State.detach
  split
  · exact h.beginAnswered.enterLeaving
  · exact h.beginAnswered.withMembership
  iterate 3 exact h.beginAnswered.enterDetached
  all_goals exact h.beginAnswered

theorem resync (h : SlotSound s) : SlotSound s.resync := h.beginAnswered.enterLeaving.ite h.beginAnswered

/-! ## The command unit's rows (R165 to R195) -/

theorem take {p : QueuedCommand → Bool} {start : CommandRecord → State → State}
    (starts : ∀ {k u}, SlotSound u → SlotSound (start k u)) (h : SlotSound s) : SlotSound (s.take p start) := by
  unfold State.take
  split
  · exact (starts h.withHost).ite h
  · exact h

theorem endAtStart {k : CommandRecord} {status : Status} (h : SlotSound s) : SlotSound (s.endAtStart k status) := h.post

theorem startInMember {k : CommandRecord} {start : Region → State} (h : SlotSound s)
    (starts : ∀ {r}, SlotSound (start r)) : SlotSound (s.startInMember k b start) := by
  unfold State.startInMember
  split
  · exact h.endAtStart.ite (h.endAtStart.ite starts)
  · exact h.endAtStart

variable {k : CommandRecord}

theorem startOpen (h : SlotSound s) : SlotSound (s.startOpen k) :=
  h.startInMember (h.endAtStart.ite (h.endAtStart.ite h.attemptClaim))

theorem startClose (h : SlotSound s) : SlotSound (s.startClose k) := h.startInMember (h.place.proceed.ite h.endAtStart)

theorem startRenew (h : SlotSound s) : SlotSound (s.startRenew k) := h.startInMember (h.place.proceed.ite h.endAtStart)

theorem startWrite (h : SlotSound s) : SlotSound (s.startWrite k) :=
  h.startInMember (h.endAtStart.ite (h.endAtStart.ite h.place.proceed))

theorem startRepair (h : SlotSound s) : SlotSound (s.startRepair k) := by
  unfold State.startRepair
  split
  · exact h.endAtStart
  · split
    · exact h.returnLost.endAtStart
    all_goals exact h.endAtStart

theorem startCopy (h : SlotSound s) : SlotSound (s.startCopy k) := by
  unfold State.startCopy
  split
  · exact h.endAtStart
  · exact h.startInMember (h.endAtStart.ite (h.endAtStart.ite (h.endAtStart.ite h.placeChunk)))

theorem startFill (h : SlotSound s) : SlotSound (s.startFill k) :=
  h.startInMember (h.endAtStart.ite (h.endAtStart.ite h.placeChunk))

theorem examineGroup {next : Int} {unexamined : Nat} (h : SlotSound s) :
    SlotSound (s.examineGroup run next unexamined b) := by
  unfold State.examineGroup
  dsimp only
  split
  · exact h.endCommand
  · exact h.endCommand.ite h.proceed

theorem startScan (h : SlotSound s) : SlotSound (s.startScan k) := by
  unfold State.startScan
  split
  · exact h.endAtStart
  · exact h.endAtStart.ite (h.endAtStart.ite h.examineGroup)

theorem nextGroup (h : SlotSound s) : SlotSound s.nextGroup := by
  unfold State.nextGroup
  split
  · split
    · exact h.examineGroup
    · exact h
  · exact h

theorem expireOpenWait (h : SlotSound s) : SlotSound s.expireOpenWait := by
  unfold State.expireOpenWait
  split
  · split
    · exact h.ifSo endCommand
    · exact h.ifSo proceed
    · exact h.ifSo proceed
    · exact h
  · exact h

/-! ## The deadlines -/

theorem confirmationExpires (h : SlotSound s) : SlotSound (s.confirmationExpires r) := by
  unfold State.confirmationExpires
  split
  · exact h.ifSo confirm
  all_goals exact h

theorem leaseExpires (h : SlotSound s) : SlotSound (s.leaseExpires r) := by
  unfold State.leaseExpires
  split
  · exact h.ifSo expireLease
  all_goals exact h

theorem settleExpires (h : SlotSound s) : SlotSound (s.settleExpires r) := by
  unfold State.settleExpires
  split
  · exact h.ifSo changeEntry
  all_goals exact h

theorem ownerSideExpires (h : SlotSound s) : SlotSound (s.ownerSideExpires r) := by
  unfold State.ownerSideExpires
  split
  · exact h.ifSo lapse
  all_goals exact h

theorem overheardExpires (h : SlotSound s) : SlotSound (s.overheardExpires r) := by
  unfold State.overheardExpires
  split
  · exact h.ifSo adopt
  · exact h

theorem removeAged (h : SlotSound s) : SlotSound s.removeAged := by
  unfold State.removeAged
  split
  · exact h.ite h.withBudget
  · exact h

theorem withdrawDueObjections (h : SlotSound s) : SlotSound s.withdrawDueObjections := by
  have raised (n : Nat) : ∀ {u : State}, SlotSound u → SlotSound (u.raiseObjectionsBy n) := by
    induction n with
    | zero => exact id
    | succ n ih => exact fun h => ih h.raiseObjectionsWithdrawn
  exact raised _ h.withLiu

theorem partDeadlineExpires (h : SlotSound s) : SlotSound s.partDeadlineExpires := by
  unfold State.partDeadlineExpires
  split
  · exact h.ifSo abandonReception
  · exact h

theorem refreshTimerExpires (h : SlotSound s) : SlotSound s.refreshTimerExpires := by
  unfold State.refreshTimerExpires
  split
  · exact h.ifSo refreshTimedOut
  · exact h

theorem presenceTimerExpires (h : SlotSound s) : SlotSound s.presenceTimerExpires := by
  unfold State.presenceTimerExpires
  split
  · exact h.ifSo fun h => h.withMembership.ite h.withMembership.place
  · exact h

theorem listenTimerExpires (h : SlotSound s) : SlotSound s.listenTimerExpires := by
  unfold State.listenTimerExpires
  split
  · exact h.ifSo fun h => h.enterJoining.ite h.aloneStart
  · exact h

theorem absenceExpires (h : SlotSound s) : SlotSound (s.absenceExpires x) := by
  unfold State.absenceExpires
  split
  · exact h.ifSo fun h => h.setMember.stationGone
  · exact h

theorem isolationExpires (h : SlotSound s) : SlotSound s.isolationExpires := by
  unfold State.isolationExpires
  split
  · exact h.ifSo enterListening
  · exact h

theorem gapExpires (h : SlotSound s) : SlotSound s.gapExpires := by
  unfold State.gapExpires
  split
  · exact h.ifSo joinFails
  · exact h

theorem renewalExpires (h : SlotSound s) : SlotSound s.renewalExpires := by
  unfold State.renewalExpires
  split
  · exact h.ifSo fun h => h.withMembership.ite h.withMembership.place
  · exact h

/-! ## Every command -/

variable {n : Time} {g : State → State}

theorem restart (s : State) : SlotSound (s.restart n) := ⟨Nat.zero_le 16, by simp [State.restart, State.resetAt]⟩

theorem whenPowered (h : SlotSound s) (keeps : ∀ {u}, SlotSound u → SlotSound (g u)) :
    ∃ s', Machine.whenPowered n g s = .next s' ∧ SlotSound s' := ⟨_, rfl, (keeps h.advance).ite h⟩

theorem event (h : SlotSound s) (keeps : ∀ {u}, SlotSound u → SlotSound (g u)) :
    ∃ s', Machine.event n g s = .next s' ∧ SlotSound s' := h.whenPowered fun h => (keeps h).conclude

theorem arrival {a : Frame} {deliver : Option Queued → State → State} (h : SlotSound s)
    (delivers : ∀ {own u}, SlotSound u → SlotSound (deliver own u)) :
    ∃ s', Machine.arrival n x a deliver s = .next s' ∧ SlotSound s' := by
  refine h.event fun h => ?_
  split
  · exact h.frameArrives delivers
  · exact h.faultyFrameEnds

theorem partArrival {a : Frame} {kind : TransferKind} {echoed : Queued → State → State} {suppress : State → State}
    (h : SlotSound s) (goes : ∀ {y u}, SlotSound u → SlotSound (echoed y u))
    (suppresses : ∀ {u}, SlotSound u → SlotSound (suppress u)) :
    ∃ s', Machine.partArrival n x a kind f echoed suppress s = .next s' ∧ SlotSound s' := by
  unfold Machine.partArrival
  split
  · refine h.whenPowered fun h => ?_
    dsimp only
    split
    · exact (goes h.lineHeard.leaveQueue.ownHeard).conclude
    · exact h.lineHeard.duplicateNumber.conclude.ite (suppresses h.lineHeard.otherHeard).receivePart.concludeFrom
  · exact h.event faultyFrameEnds

theorem refreshDataArrival (h : SlotSound s) : ∃ s', execRefreshDataArrival n x f s = .next s' ∧ SlotSound s' :=
  h.partArrival (jobEchoed refreshPartEchoed) suppressRefresh

theorem snapArrival (h : SlotSound s) : ∃ s', execSnapArrival n x f s = .next s' ∧ SlotSound s' :=
  h.partArrival (syncEchoed snapPartEchoed) fun h => h.suppressSync.restartGap

theorem joinReqArrival (h : SlotSound s) : ∃ s', execJoinReqArrival n x s = .next s' ∧ SlotSound s' := by
  refine h.arrival fun {own _} h => ?_
  cases own with
  | some => exact h.joinReqEchoed
  | none => exact h.joinRequested

theorem dirArrival {a : Group} {es : List DirField} (h : SlotSound s) :
    ∃ s', execDirArrival n x j a es s = .next s' ∧ SlotSound s' := by
  refine h.arrival fun {own _} h => ?_
  cases own with
  | some => exact h.syncEchoed dirEchoed
  | none => exact h.dirArrives

theorem syncEndArrival (h : SlotSound s) : ∃ s', execSyncEndArrival n x j s = .next s' ∧ SlotSound s' := by
  refine h.arrival fun {own _} h => ?_
  cases own with
  | some => exact h.syncEchoed syncEndEchoed
  | none => exact h.syncEndArrives

/-- Every command has a next state, and keeps the posting slot's record at a full completion queue. -/
theorem exec (c : Instr) (h : SlotSound s) : ∃ s', Machine.exec c s = .next s' ∧ SlotSound s' := by
  cases c with
  | powerOn => exact ⟨_, rfl, restart s⟩
  | nreset => exact ⟨_, rfl, (restart s).ite h⟩
  | powerBelowOperatingRange => exact h.whenPowered fun h => h.of_eq rfl rfl
  | configure => exact h.whenPowered configure
  | status => exact h.whenPowered beginRead
  | statusCompletionPoint => exact h.whenPowered completeStatus
  | putCommand => exact h.whenPowered putCommand
  | getCompletion => exact h.whenPowered takeCompletion
  | getCompletionCompletionPoint => exact h.whenPowered completeCompletion
  | readImage => exact h.whenPowered beginRead
  | readRegion => exact h.whenPowered beginRead
  | takeChanges => exact h.whenPowered beginRead
  | takeChangesCompletionPoint => exact h.whenPowered completeChanges
  | abort => exact h.whenPowered abort
  | abortAll => exact h.whenPowered fun h => h.abort.withHost
  | attach => exact h.event attach
  | detach => exact h.event detach
  | resync => exact h.event resync
  | readCounters => exact h.whenPowered beginRead
  | readCountersCompletionPoint => exact h.whenPowered completeCounters
  | unassignedTransaction => exact h.whenPowered begin
  | transactionEnd => exact h.whenPowered begin
  | openRegion => exact h.whenPowered (take startOpen)
  | closeRegion => exact h.whenPowered (take startClose)
  | renewRegion => exact h.whenPowered (take startRenew)
  | writeRegion => exact h.whenPowered (take startWrite)
  | repairRegion => exact h.whenPowered (take startRepair)
  | copy => exact h.whenPowered (take startCopy)
  | fill => exact h.whenPowered (take startFill)
  | scan => exact h.whenPowered (take startScan)
  | unknownKind => exact h.whenPowered (take endAtStart)
  | cancelledRecord => exact h.whenPowered (take endAtStart)
  | scanGroup => exact h.whenPowered nextGroup
  | postingSlotMove => exact h.whenPowered fun h => of_movePosted h.bounded
  | openWaitDeadlineExpiry => exact h.whenPowered expireOpenWait
  | claimArrival => exact h.arrival claimArrives
  | objectArrival => exact h.arrival objectArrives
  | updateArrival => exact h.arrival updateArrives
  | renewArrival => exact h.arrival renewArrives
  | releaseArrival => exact h.arrival releaseArrives
  | presenceArrival => exact h.arrival fun h => h.ifSo presenceCheck
  | refreshReqArrival => exact h.arrival fun h => h.refreshReqEchoed.ite h.refreshRequested
  | refreshDataArrival => exact h.refreshDataArrival
  | joinReqArrival => exact h.joinReqArrival
  | dirArrival => exact h.dirArrival
  | snapArrival => exact h.snapArrival
  | syncEndArrival => exact h.syncEndArrival
  | leaveArrival => exact h.arrival fun h => h.leaveEchoed.ite h.leaveArrives
  | faultyFrameEnd => exact h.event faultyFrameEnds
  | lineActivityDeferral => exact h.whenPowered withLiu
  | accessInstant => exact h.event access
  | collision => exact h.event collide
  | jamEnd => exact h.event endJam
  | waitingPlacingRequest => exact h.whenPowered placeWaiting
  | confirmationExpiry => exact h.event confirmationExpires
  | leaseExpiry => exact h.event leaseExpires
  | settleExpiry => exact h.event settleExpires
  | ownerSideExpiry => exact h.event ownerSideExpires
  | overheardClaimExpiry => exact h.event overheardExpires
  | budgetEntryRemoval => exact h.event removeAged
  | objectionDeadlineExpiry => exact h.event withdrawDueObjections
  | partDeadlineExpiry => exact h.event partDeadlineExpires
  | refreshTimerExpiry => exact h.event refreshTimerExpires
  | presenceTimerExpiry => exact h.event presenceTimerExpires
  | listenTimerExpiry => exact h.event listenTimerExpires
  | absenceDeadlineExpiry => exact h.event absenceExpires
  | isolationTimerExpiry => exact h.event isolationExpires
  | gapDeadlineExpiry => exact h.event gapExpires
  | renewalDeadlineExpiry => exact h.event renewalExpires
  | repairRequest => exact h.event requestRepair

end SlotSound

end Sys2Proof.Machine
end

section
/-! ATTN: its three conditions, a CONFIGURE and a reset, and the record that moves out of the posting slot (R163, R199, R200,
R210). -/

namespace Sys2Proof.Machine

/-! ## The three conditions -/

/-- While the record is empty both notify bits count as no (R199). -/
theorem State.notifyChanges_iff {s : State} :
    s.notifyChanges = true ↔ ∃ k, s.host.config = some k ∧ k.notifyChanges = true := by
  unfold State.notifyChanges
  cases s.host.config <;> simp

theorem State.notifyState_iff {s : State} :
    s.notifyState = true ↔ ∃ k, s.host.config = some k ∧ k.notifyState = true := by
  unfold State.notifyState
  cases s.host.config <;> simp

theorem State.attnAsserted_iff {s : State} (powered : s.powered = true) :
    s.attnAsserted = true ↔
      s.host.completionQueue ≠ [] ∨
        (s.host.changeSet ≠ [] ∧ ∃ k, s.host.config = some k ∧ k.notifyChanges = true) ∨
        (s.host.stateChanged = true ∧ ∃ k, s.host.config = some k ∧ k.notifyState = true) := by
  simp [State.attnAsserted, powered, State.notifyChanges_iff, State.notifyState_iff, or_assoc]

theorem State.attnAsserted_resetAt (t : Time) : (State.resetAt t).attnAsserted = false := by
  simp [State.attnAsserted, State.resetAt, HostLink.reset]

/-! ## An accepted CONFIGURE -/

/-- A CONFIGURE with a station of 0 to 15 and a lease code of 0 to 50 is accepted in UNCONFIGURED (R99). -/
theorem State.configuration_ok {s : State} {station lease limit mask : Byte} (unconfigured : s.station = .unconfigured)
    (number : station.toNat < 16) (code : lease.toNat < 51) :
    s.configuration station lease limit mask =
      (.ok, some { station := ⟨station.toNat, number⟩, leaseCode := ⟨lease.toNat, code⟩, openWaitLimit := limit,
                   notifyChanges := mask.getLsbD 0, notifyState := mask.getLsbD 1 }) := by
  simp [State.configuration, unconfigured, number, code]

theorem State.setOwnEntry_powered (s : State) (p : Presence) : (s.setOwnEntry p).powered = s.powered := by
  unfold State.setOwnEntry
  split <;> rfl

theorem State.setOwnEntry_host (s : State) (p : Presence) : (s.setOwnEntry p).host = s.host := by
  unfold State.setOwnEntry
  split <;> rfl

/-- The entry into LISTENING sets the state-changed flag and leaves the configuration (R98, R200). -/
theorem State.attnAsserted_enterListening {s : State} (powered : s.powered = true) (notify : s.notifyState = true) :
    s.enterListening.attnAsserted = true := by
  have stillPowered : s.enterListening.powered = true := by
    simp [State.enterListening, State.setStation, State.setOwnEntry_powered, powered]
  have config : s.enterListening.host.config = s.host.config := by
    rw [← s.setOwnEntry_host .absent]
    rfl
  rw [State.attnAsserted_iff stillPowered, config, ← State.notifyState_iff]
  exact .inr (.inr ⟨rfl, notify⟩)

theorem State.attnAsserted_configure {s : State} {station lease limit mask : Byte} (powered : s.powered = true)
    (unconfigured : s.station = .unconfigured) (number : station.toNat < 16) (code : lease.toNat < 51)
    (asked : mask.getLsbD 1 = true) : (s.configure station lease limit mask).attnAsserted = true := by
  rw [State.configure, State.configuration_ok unconfigured number code]
  exact State.attnAsserted_enterListening powered asked

/-! ## The record that moves out of the posting slot -/

theorem State.post_completionQueue_ne_nil (s : State) (k : Completion) : (s.post k).host.completionQueue ≠ [] := by
  unfold State.post
  split
  next => simp
  next noRoom => exact List.ne_nil_of_length_pos (Nat.lt_of_lt_of_le (by decide) (Nat.not_lt.1 noRoom))

theorem State.attnAsserted_post {s : State} (powered : s.powered = true) (k : Completion) :
    (s.post k).attnAsserted = true :=
  (State.attnAsserted_iff ((s.post_lineOnly k).powered.trans powered)).2 (.inl (s.post_completionQueue_ne_nil k))

/-- The completion point of a GET-COMPLETION removes the head record and posts the one in the slot (R163, R203). -/
theorem State.completeCompletion_posting {s : State} {p : Completion} (posting : s.unit = .posting p)
    (taken : s.host.transaction = .completionTaken) :
    s.completeCompletion = (s.withHost fun h =>
      { h with transaction := .nothingToComplete, completionQueue := h.completionQueue.tail }).post p := by
  simp [State.completeCompletion, taken, State.movePosted, posting]

/-- Settles O17: ATTN by its conditions, the entry into LISTENING at a CONFIGURE, the record that a removal moves out of the
slot, and `SlotSound`, which every command keeps. -/
theorem attnFollowsItsThreeConditions : Obligations.AttnFollowsItsThreeConditions := by
  refine ⟨fun s powered => State.attnAsserted_iff powered, State.attnAsserted_resetAt, ?configured, ?moved, ?kept⟩
  case configured =>
    intro t station lease limit mask s powered unconfigured number code asked
    refine ⟨(s.advance t).configure station lease limit mask, by simp [exec, execConfigure, whenPowered, powered], ?_⟩
    exact State.attnAsserted_configure powered unconfigured (Nat.lt_succ_of_le number) (Nat.lt_succ_of_le code) asked
  case moved =>
    intro t p s powered posting taken _
    refine ⟨(s.advance t).completeCompletion, by simp [exec, execGetCompletionCompletionPoint, whenPowered, powered], ?_⟩
    rw [State.completeCompletion_posting (s := s.advance t) posting taken]
    exact State.attnAsserted_post (by exact powered) p
  case kept =>
    intro c s s' next full bounded
    obtain ⟨u, reached, sound⟩ := SlotSound.exec c ⟨bounded, full⟩
    obtain rfl : u = s' := by simpa [reached] using next
    exact sound.full

end Sys2Proof.Machine
end

section
/-! SUPPORT. What an operation of the station keeps, as one relation between the state before it and the state after it. The
next sections give one lemma per operation, put together as the operation is from others. -/

-- One declaration at a time: side by side, the case splits of these proofs want more threads than the memory limit allows.
set_option Elab.async false

namespace Sys2Proof.Machine

/-! ## The bounds of the queues, and the form of an entry -/

/-- The bounds of the lists beside the repair list (R38, R72, R154, R202, R203). -/
structure QueuesBounded (s : State) : Prop where
  budget : s.budget.length ≤ Config.budgetLimit
  jobs : s.transfer.jobs.length ≤ Config.jobLimit
  frames : ∀ q, (s.liu.queue q).length ≤ Config.transmitQueueLimit
  commands : s.host.commandQueue.length ≤ Config.commandQueueLimit
  completions : s.host.completionQueue.length ≤ Config.completionQueueLimit

/-- A list of regions without repetition holds at most 64. -/
theorem State.listsBounded_iff {s : State} : s.listsBounded ↔ QueuesBounded s ∧ s.repairListSound := by
  constructor
  · rintro ⟨budget, jobs, reply, originated, commands, completions, -, repair⟩
    exact ⟨⟨budget, jobs, fun q => by cases q <;> assumption, commands, completions⟩, repair⟩
  · rintro ⟨bounded, repair⟩
    have length : s.transfer.repairList.length ≤ 64 := by simpa using repair.1.length_le_card
    exact ⟨bounded.budget, bounded.jobs, bounded.frames .reply, bounded.frames .originated, bounded.commands,
      bounded.completions, length, repair⟩

/-- The stations that transmit are those in which an entry may be other than UNKNOWN (R2). -/
theorem StationState.not_transmits_iff {st : StationState} :
    st.transmits = false ↔ st = .unconfigured ∨ st = .listening ∨ st = .detached ∨ st = .isolated := by
  cases st <;> simp [StationState.transmits]

/-- The owner's side of an entry agrees with this station's number (R1). -/
def State.sideSound (s : State) (e : Entry) : Bool :=
  match e.state with
  | .held x _ side => (side != .notOwn) == s.isSelf x
  | .unknown | .free | .claimed _ _ | .settling _ _ => true

theorem State.ownerSideSound_eq (s : State) (r : Region) : s.ownerSideSound r = s.sideSound (s.entry r) := by
  unfold State.ownerSideSound State.sideSound
  cases (s.entry r).state <;> rfl

/-- Entry `e` may be written at region `r`: the region's entry is known or the station keeps the directory, and the entry's
form is carried over from the entry that stands there (R1, R2, R13). -/
structure State.Fits (s : State) (r : Region) (e : Entry) : Prop where
  known : s.entry r ≠ Entry.unknown ∨ s.station.transmits = true
  form : (s.entry r).sound = true → e.sound = true
  side : s.sideSound (s.entry r) = true → s.sideSound e = true

theorem State.directorySound_iff {s : State} :
    s.directorySound ↔ (∀ r, (s.entry r).sound = true ∧ s.sideSound (s.entry r) = true) ∧
      (s.station.transmits = false → ∀ r, s.entry r = Entry.unknown) := by
  simp only [State.directorySound, StationState.not_transmits_iff, State.ownerSideSound_eq]

/-! ## The relation -/

/-- `t` comes from `s` by operations of the station. `w`: they may write a replica's bytes or version. `k`: they are whole, so
that the repair list, the station state and the directory are in step again. -/
structure Evolves (w k : Prop) (s t : State) : Prop where
  now : s.now ≤ t.now
  pending : t.pending = s.pending
  posting : ∀ p, s.unit = .posting p → t.unit = .posting p
  told : s.host.changeSet ⊆ t.host.changeSet
  ascending : s.host.changeSet.Pairwise (· < ·) → t.host.changeSet.Pairwise (· < ·)
  queues : QueuesBounded s → QueuesBounded t
  image : s.imageSound → t.imageSound
  written : ¬ w → ∀ r, (t.replica r).content = (s.replica r).content ∧ (t.replica r).version = (s.replica r).version
  repair : k → s.repairListSound → t.repairListSound
  membership : k → s.membershipSound → t.membershipSound
  directory : k → s.membershipSound → s.directorySound → t.directorySound

namespace Evolves

variable {w k : Prop} {a s t u : State}

theorem refl (s : State) : Evolves w k s s :=
  ⟨le_rfl, rfl, fun _ => id, List.Subset.refl _, id, id, id, fun _ _ => ⟨rfl, rfl⟩, fun _ => id, fun _ => id, fun _ _ => id⟩

theorem trans (h : Evolves w k s t) (g : Evolves w k t u) : Evolves w k s u where
  now := h.now.trans g.now
  pending := g.pending.trans h.pending
  posting p := g.posting p ∘ h.posting p
  told := List.Subset.trans h.told g.told
  ascending := g.ascending ∘ h.ascending
  queues := g.queues ∘ h.queues
  image := g.image ∘ h.image
  written kept r := ⟨(g.written kept r).1.trans (h.written kept r).1, (g.written kept r).2.trans (h.written kept r).2⟩
  repair whole := g.repair whole ∘ h.repair whole
  membership whole := g.membership whole ∘ h.membership whole
  directory whole sound := g.directory whole (h.membership whole sound) ∘ h.directory whole sound

/-- Operations that together are whole. -/
theorem sealed (h : Evolves w False s t) (repair : s.repairListSound → t.repairListSound)
    (membership : s.membershipSound → t.membershipSound)
    (directory : s.membershipSound → s.directorySound → t.directorySound) : Evolves w k s t :=
  { h with repair := fun _ => repair, membership := fun _ => membership, directory := fun _ => directory }

theorem weaken (h : Evolves False k s t) : Evolves w k s t :=
  { h with written := fun _ => h.written id }

/-- The two branches of a step that depends on a condition. -/
theorem branch {p : Prop} {_ : Decidable p} (yes : p → Evolves w k a s) (no : ¬ p → Evolves w k a t) :
    Evolves w k a (if p then s else t) := by
  split
  · exact yes ‹_›
  · exact no ‹_›

theorem ite {p : Prop} {_ : Decidable p} (yes : Evolves w k a s) (no : Evolves w k a t) :
    Evolves w k a (if p then s else t) := branch (fun _ => yes) fun _ => no

/-- A step that is made under a condition only. -/
theorem ifSo {p : Prop} {_ : Decidable p} (h : Evolves w k a s) (step : Evolves w k a s → Evolves w k a t) :
    Evolves w k a (if p then t else s) := (step h).ite h

theorem foldl {α : Type} {f : State → α → State} {xs : List α} (h : Evolves w k a s)
    (step : ∀ {u x}, Evolves w k a u → Evolves w k a (f u x)) : Evolves w k a (xs.foldl f s) := by
  induction xs generalizing s with
  | nil => exact h
  | cons x rest ih => exact ih (step h)

end Evolves

/-! ## Registers that agree -/

/-- The queues of a line interface unit hold no more frames than those of another. -/
def Liu.Shorter (l m : Liu) : Prop := ∀ q, (m.queue q).length ≤ (l.queue q).length

theorem Liu.Shorter.trans {l m n : Liu} (h : l.Shorter m) (g : m.Shorter n) : l.Shorter n := fun q => (g q).trans (h q)

namespace LineOnly

variable {s t : State}

theorem imageSound (h : LineOnly s t) : s.imageSound → t.imageSound := by
  simp only [State.imageSound, h.replica, h.transfer, imp_self]

theorem repairListSound (h : LineOnly s t) : s.repairListSound → t.repairListSound := by
  simp only [State.repairListSound, h.replica, h.transfer, imp_self]

theorem membershipSound (h : LineOnly s t) : s.membershipSound → t.membershipSound := by
  simp only [State.membershipSound, State.station, h.membership, h.config, imp_self]

theorem directorySound (h : LineOnly s t) : s.directorySound → t.directorySound := by
  simp only [State.directorySound, State.ownerSideSound, h.entry, h.isSelf, h.station, imp_self]

/-- A state that differs in the LIU, the command unit, the claim counter and the host link only. -/
theorem evolves {w k : Prop} (h : LineOnly s t) (posting : ∀ p, s.unit = .posting p → t.unit = .posting p)
    (changes : t.host.changeSet = s.host.changeSet) (queues : QueuesBounded s → QueuesBounded t) : Evolves w k s t where
  now := h.now.ge
  pending := h.pending
  posting := posting
  told := by simp [changes]
  ascending := by simp [changes]
  queues := queues
  image := h.imageSound
  written _ r := by simp [h.replica]
  repair _ := h.repairListSound
  membership _ := h.membershipSound
  directory _ _ := h.directorySound

end LineOnly

theorem State.withHost_lineOnly (s : State) (f : HostLink → HostLink) (config : (f s.host).config = s.host.config) :
    LineOnly s (s.withHost f) := ⟨rfl, rfl, rfl, rfl, rfl, rfl, rfl, rfl, rfl, config, rfl⟩

end Sys2Proof.Machine
end

section
/-! SUPPORT. The single writes to the registers, each with what it must meet to be one step of `Evolves`. -/

-- One declaration at a time: side by side, the case splits of these proofs want more threads than the memory limit allows.
set_option Elab.async false

namespace Sys2Proof.Machine

/-! ## The change set -/

theorem mem_insertAscending {n : Nat} {a b : Fin n} {xs : List (Fin n)} : b ∈ insertAscending a xs ↔ b = a ∨ b ∈ xs := by
  induction xs with
  | nil => simp [insertAscending]
  | cons c rest ih =>
    unfold insertAscending
    split
    · simp
    · split
      next eq => subst eq; simp
      next => simp [ih]; tauto

theorem insertAscending_pairwise {n : Nat} (a : Fin n) {xs : List (Fin n)} (h : xs.Pairwise (· < ·)) :
    (insertAscending a xs).Pairwise (· < ·) := by
  induction xs with
  | nil => simp [insertAscending]
  | cons b rest ih =>
    obtain ⟨above, pairwise⟩ := List.pairwise_cons.1 h
    unfold insertAscending
    split
    next lt => simpa [lt, h] using fun c mem => lt.trans (above c mem)
    next notLt =>
      split
      · exact h
      next ne =>
        refine List.pairwise_cons.2 ⟨fun c mem => ?_, ih pairwise⟩
        rcases mem_insertAscending.1 mem with rfl | mem
        · omega
        · exact above c mem

/-- Every region of a list joins the change set, and the mark 'added again' where a TAKE-CHANGES stands open (R205, R206). -/
theorem State.addChanges_eq (s : State) (rs : List Region) :
    s.addChanges rs = s.withHost fun h =>
      { h with changeSet := rs.foldl (fun set r => insertAscending r set) h.changeSet,
               transaction := rs.foldl Transaction.markAgain h.transaction } := by
  induction rs generalizing s with
  | nil => rfl
  | cons r rest ih => exact ih (s.addChange r)

/-! ## The command in execution -/

theorem State.running_iff {s : State} {run : Running} : s.running = some run ↔ s.unit = .executing run := by
  unfold State.running
  split <;> simp [*]

/-- Where a command is in execution nothing stands in the posting slot (R161). -/
theorem State.not_posting_of_running {s : State} {run : Running} (h : s.running = some run) (p : Completion) :
    s.unit ≠ .posting p := by
  simp [State.running_iff.1 h]

/-! ## The queues of the LIU -/

@[simp] theorem Liu.queue_setQueue_self (l : Liu) (q : QueueId) (xs : List Queued) : (l.setQueue q xs).queue q = xs := by
  cases q <;> rfl

theorem Liu.queue_setQueue (l : Liu) (q q' : QueueId) (xs : List Queued) :
    (l.setQueue q xs).queue q' = if q' = q then xs else l.queue q' := by
  cases q <;> cases q' <;> rfl

@[simp] theorem Liu.queue_setWaiting (l : Liu) (q q' : QueueId) (xs : List Item) :
    (l.setWaiting q xs).queue q' = l.queue q' := by
  cases q <;> rfl

theorem Liu.shorter_setQueue {l : Liu} {q : QueueId} {xs : List Queued} (h : xs.length ≤ (l.queue q).length) :
    l.Shorter (l.setQueue q xs) := by
  intro q'
  rw [Liu.queue_setQueue]
  split
  next eq => exact eq ▸ h
  next => exact le_rfl

theorem dropUnbegun_length (flying : Bool) (p : Item → Bool) (xs : List Queued) :
    (dropUnbegun flying p xs).length ≤ xs.length := by
  unfold dropUnbegun
  split
  · simp
  · split
    · simpa using List.length_filter_le _ _
    · exact List.length_filter_le _ _

theorem Liu.cancel_shorter (l : Liu) (q : QueueId) (p : Item → Bool) : l.Shorter (l.cancel q p) := by
  intro q'
  rw [Liu.cancel, Liu.queue_setWaiting]
  exact Liu.shorter_setQueue (dropUnbegun_length _ _ _) q'

theorem Liu.markFlight_shorter (l : Liu) (q : QueueId) (p : Item → Bool) : l.Shorter (l.markFlight q p) := by
  unfold Liu.markFlight
  split
  next queue =>
    split
    · exact Liu.shorter_setQueue (by simp [queue])
    · exact fun _ => le_rfl
  next => exact fun _ => le_rfl

theorem Liu.orphanFlight_shorter (l : Liu) (q : QueueId) (p : Item → Bool) : l.Shorter (l.orphanFlight q p) := by
  unfold Liu.orphanFlight
  split
  next queue =>
    split
    · exact Liu.shorter_setQueue (by simp [queue])
    · exact fun _ => le_rfl
  next => exact fun _ => le_rfl

/-! ## Completion records (R162, R163) -/

theorem State.post_changeSet (s : State) (c : Completion) : (s.post c).host.changeSet = s.host.changeSet := by
  unfold State.post
  split <;> rfl

/-- A completion record goes to the queue where there is room, and to the posting slot otherwise. -/
theorem QueuesBounded.post {s : State} (b : QueuesBounded s) (c : Completion) : QueuesBounded (s.post c) := by
  unfold State.post
  split
  next room => exact ⟨b.budget, b.jobs, b.frames, b.commands, by simpa using room⟩
  next => exact ⟨b.budget, b.jobs, b.frames, b.commands, b.completions⟩

namespace Evolves

variable {w k : Prop} {a s t : State} {q : QueueId} {i : Item} {r : Region} {x : Station} {e : Entry} {run : Running}

/-! ## Clock, LIU, command unit and host link -/

theorem advance {n : Time} (h : Evolves w k a s) : Evolves w k a (s.advance n) :=
  h.trans { refl s with now := Nat.le_max_left _ _, queues := fun b => ⟨b.1, b.2, b.3, b.4, b.5⟩ }

theorem withLiu {f : Liu → Liu} (h : Evolves w k a s) (shorter : s.liu.Shorter (f s.liu) := by exact fun _ => le_rfl) :
    Evolves w k a (s.withLiu f) :=
  h.trans <| (s.withLiu_lineOnly f).evolves (fun _ => id) rfl fun b =>
    ⟨b.budget, b.jobs, fun q => (shorter q).trans (b.frames q), b.commands, b.completions⟩

theorem cancel {p : Item → Bool} (h : Evolves w k a s) : Evolves w k a (s.cancel q p) := h.withLiu (s.liu.cancel_shorter q p)

theorem append (h : Evolves w k a s) (room : s.queueRoom q = true) : Evolves w k a (s.append q i) := by
  have length (x : Queued) (b : QueuesBounded s) (q' : QueueId) :
      ((s.liu.setQueue q (s.liu.queue q ++ [x])).queue q').length ≤ Config.transmitQueueLimit := by
    rw [Liu.queue_setQueue]
    split
    · simpa [State.queueRoom] using room
    · exact b.frames q'
  refine h.trans ((s.append_lineOnly q i).evolves ?_ (s.append_changeSet q i) fun b => ?_)
  · unfold State.append
    split <;> exact fun _ => id
  · unfold State.append
    split <;> exact ⟨b.budget, b.jobs, length _ b, b.commands, b.completions⟩

/-- A host link that keeps its configuration and its change set, and adds to no queue. -/
theorem withHost {g : HostLink → HostLink} (h : Evolves w k a s)
    (config : (g s.host).config = s.host.config := by rfl) (changes : (g s.host).changeSet = s.host.changeSet := by rfl)
    (commands : s.host.commandQueue.length ≤ 8 → (g s.host).commandQueue.length ≤ 8 := by exact id)
    (completions : (g s.host).completionQueue = s.host.completionQueue := by rfl) :
    Evolves w k a (s.withHost g) :=
  h.trans <| (s.withHost_lineOnly g config).evolves (fun _ => id) changes fun b =>
    ⟨b.budget, b.jobs, b.frames, commands b.commands, completions ▸ b.completions⟩

theorem setUnit {v : CommandUnit} (h : Evolves w k a s) (free : ∀ p, s.unit ≠ .posting p) :
    Evolves w k a { s with unit := v } :=
  h.trans <| (s.unit_lineOnly v).evolves (fun p posting => absurd posting (free p)) rfl fun b => ⟨b.1, b.2, b.3, b.4, b.5⟩

theorem proceed {p : Progress} (h : Evolves w k a s) (free : ∀ p, s.unit ≠ .posting p) :
    Evolves w k a (s.proceed run p) := h.setUnit free

theorem post {c : Completion} (h : Evolves w k a s) (free : ∀ p, s.unit ≠ .posting p) : Evolves w k a (s.post c) :=
  h.trans ((s.post_lineOnly c).evolves (fun p posting => absurd posting (free p)) (s.post_changeSet c) (·.post c))

theorem endCommand {status : Status} {reason : Reason} {v : Version} {n : Nat} {p : Int} {found exhausted released : Bool}
    (h : Evolves w k a s) (free : ∀ p, s.unit ≠ .posting p) :
    Evolves w k a (s.endCommand run status reason v n p found exhausted released) := h.post free

theorem addChange (h : Evolves w k a s) : Evolves w k a (s.addChange r) :=
  h.trans { refl s with
    told := fun _ mem => mem_insertAscending.2 (.inr mem)
    ascending := insertAscending_pairwise r
    queues := fun b => ⟨b.1, b.2, b.3, b.4, b.5⟩ }

theorem addChanges {rs : List Region} (h : Evolves w k a s) : Evolves w k a (s.addChanges rs) := h.foldl addChange

theorem setStateChanged (h : Evolves w k a s) : Evolves w k a s.setStateChanged := h.withHost

theorem raiseObjectionsWithdrawn (h : Evolves w k a s) : Evolves w k a s.raiseObjectionsWithdrawn := h.withHost
theorem raiseFrameErrors (h : Evolves w k a s) : Evolves w k a s.raiseFrameErrors := h.withHost
theorem raiseTxFailures (h : Evolves w k a s) : Evolves w k a s.raiseTxFailures := h.withHost
theorem raiseVersionGaps (h : Evolves w k a s) : Evolves w k a s.raiseVersionGaps := h.withHost
theorem raiseForeignUpdates (h : Evolves w k a s) : Evolves w k a s.raiseForeignUpdates := h.withHost
theorem raiseTransfersAbandoned (h : Evolves w k a s) : Evolves w k a s.raiseTransfersAbandoned := h.withHost
theorem begin {tr : Transaction} {b : Option Answer} (h : Evolves w k a s) : Evolves w k a (s.begin tr b) := h.withHost
theorem beginAnswered {b : Answer} (h : Evolves w k a s) : Evolves w k a (s.beginAnswered b) := h.begin
theorem beginRead {tr : Transaction} {bs : List Byte} (h : Evolves w k a s) : Evolves w k a (s.beginRead tr bs) := h.withHost

theorem withFreeCount {n : Nat} (h : Evolves w k a s) : Evolves w k a { s with freeCount := n } :=
  h.trans { refl s with queues := fun b => ⟨b.1, b.2, b.3, b.4, b.5⟩ }

theorem withBudget {es : List BudgetEntry} (h : Evolves w k a s)
    (bounded : s.budget.length ≤ Config.budgetLimit → es.length ≤ Config.budgetLimit) :
    Evolves w k a { s with budget := es } :=
  h.trans { refl s with queues := fun b => ⟨bounded b.1, b.2, b.3, b.4, b.5⟩ }

/-! ## The directory -/

theorem setEntry (h : Evolves w k a s) (fits : s.Fits r e) : Evolves w k a (s.setEntry r e) := by
  refine h.trans { refl s with queues := fun b => ⟨b.1, b.2, b.3, b.4, b.5⟩, directory := fun _ _ sound => ?_ }
  obtain ⟨forms, unknown⟩ := State.directorySound_iff.1 sound
  refine State.directorySound_iff.2 ⟨fun q => ?_, fun quiet q => ?_⟩
  · rw [State.entry_setEntry]
    split
    next eq => subst eq; exact ⟨fits.form (forms q).1, fits.side (forms q).2⟩
    next => exact forms q
  · rcases fits.known with known | transmits
    · exact absurd (unknown quiet r) known
    · exact absurd transmits (by simpa [State.station] using quiet)

theorem changeEntry {tell : Bool} (h : Evolves w k a s) (fits : s.Fits r e) : Evolves w k a (s.changeEntry r e tell) :=
  (h.setEntry fits).addChange.ite (h.setEntry fits)

/-! ## The replicas -/

/-- A replica record with the same condition, and with the same bytes and version unless they may be written. -/
theorem setReplica {rep : Replica} (h : Evolves w k a s) (condition : rep.condition = (s.replica r).condition)
    (content : a.imageSound → s.imageSound → Memory.wf rep.content = true)
    (written : ¬ w → rep.content = (s.replica r).content ∧ rep.version = (s.replica r).version) :
    Evolves w k a (s.setReplica r rep) := by
  have conditions (q : Region) : ((s.setReplica r rep).replica q).condition = (s.replica q).condition := by
    rw [State.replica_setReplica]
    split
    next eq => rw [eq, condition]
    next => rfl
  refine { h with
    queues := fun b => have b := h.queues b; ⟨b.1, b.2, b.3, b.4, b.5⟩, image := fun sound => ?_,
    written := fun kept q => ?_, repair := fun whole sound => ?_ }
  · obtain ⟨replicas, buffer, reception⟩ := h.image sound
    refine ⟨fun q => ?_, buffer, reception⟩
    rw [State.replica_setReplica]
    split
    · exact content sound ⟨replicas, buffer, reception⟩
    · exact replicas q
  · rw [State.replica_setReplica]
    split
    next eq => rw [(written kept).1, (written kept).2, eq]; exact h.written kept r
    next => exact h.written kept q
  · obtain ⟨nodup, stale, apart⟩ := h.repair whole sound
    exact ⟨nodup, fun q mem => (conditions q).trans (stale q mem), fun rec opened refresh =>
      ⟨(conditions _).trans (apart rec opened refresh).1, (apart rec opened refresh).2⟩⟩

/-! ## The transfer unit -/

theorem withTransfer {f : Transfer → Transfer} (h : Evolves w k a s)
    (jobs : s.transfer.jobs.length ≤ Config.jobLimit → (f s.transfer).jobs.length ≤ Config.jobLimit := by exact id)
    (buffer : s.imageSound → ∀ b, (f s.transfer).buffer = some b → Memory.wf b.content = true :=
      by exact fun sound => sound.2.1)
    (reception : s.imageSound → ∀ rec, (f s.transfer).reception = some rec → rec.sound = true :=
      by exact fun sound => sound.2.2)
    (repair : k → s.repairListSound → (s.withTransfer f).repairListSound := by exact fun _ => id) :
    Evolves w k a (s.withTransfer f) :=
  h.trans { refl s with
    queues := fun b => ⟨b.1, jobs b.2, b.3, b.4, b.5⟩
    image := fun sound => ⟨sound.1, buffer sound, reception sound⟩
    repair := repair }

/-! ## The membership controller -/

theorem withMembership {f : Membership → Membership} (h : Evolves w k a s)
    (sound : k → s.membershipSound → (s.withMembership f).membershipSound := by exact fun _ => id)
    (station : k → s.membershipSound → (f s.membership).station.transmits = false → s.station.transmits = false :=
      by exact fun _ _ => id) :
    Evolves w k a (s.withMembership f) :=
  h.trans { refl s with
    queues := fun b => ⟨b.1, b.2, b.3, b.4, b.5⟩
    membership := sound
    directory := fun whole before directory => by
      obtain ⟨forms, unknown⟩ := State.directorySound_iff.1 directory
      exact State.directorySound_iff.2 ⟨forms, fun quiet => unknown (station whole before quiet)⟩ }

theorem setMember {m : MemberEntry} (h : Evolves w k a s) : Evolves w k a (s.setMember x m) :=
  h.withMembership (f := fun m' => { m' with table := m'.table.set x m })

theorem setOwnEntry {p : Presence} (h : Evolves w k a s) : Evolves w k a (s.setOwnEntry p) := by
  unfold State.setOwnEntry
  split
  · exact h
  · exact h.setMember

end Evolves

end Sys2Proof.Machine
end

section
/-! SUPPORT. What the operations of the LIU, the command unit, the directory and the replicas keep: one lemma per operation. -/

-- One declaration at a time: side by side, the case splits of these proofs want more threads than the memory limit allows.
set_option Elab.async false

namespace Sys2Proof.Machine

/-! ## What an entry may become -/

/-- The owner's side of a HELD entry (R1). -/
theorem State.sideSound_of_held {s : State} {e : Entry} {x : Station} {l : Time} {side : OwnerSide}
    (h : e.state = .held x l side) : s.sideSound e = true ↔ (side ≠ .notOwn ↔ s.isSelf x = true) := by
  simp only [State.sideSound, h, beq_iff_eq]
  rw [Bool.eq_iff_iff, bne_iff_ne]

namespace State.Fits

variable {s : State} {r : Region} {e : Entry}

theorem of_state (known : (s.entry r).state ≠ .unknown) (form : (s.entry r).sound = true → e.sound = true)
    (side : s.sideSound (s.entry r) = true → s.sideSound e = true) : s.Fits r e :=
  ⟨.inl fun unknown => known (by rw [unknown]; rfl), form, side⟩

theorem settling {why : SettleReason} {d : Time} {x : Station} {o : Option Overheard}
    (known : s.entry r ≠ Entry.unknown ∨ s.station.transmits = true) :
    s.Fits r { state := .settling why d, lastOwner := some x, overheard := o } := ⟨known, fun _ => rfl, fun _ => rfl⟩

/-- HELD by a station, with the owner's side at this station only (R1; log 13). -/
theorem held {x : Station} {l : Time} {y : Option Station} {o : Option Overheard}
    (known : s.entry r ≠ Entry.unknown ∨ s.station.transmits = true) :
    s.Fits r { state := s.heldState x l, lastOwner := y, overheard := o } := by
  refine ⟨known, fun _ => rfl, fun _ => ?_⟩
  unfold State.heldState State.sideSound
  dsimp only
  split <;> simp [*]

end State.Fits

theorem Entry.ne_unknown_of_state {e : Entry} (h : e.state ≠ .unknown) : e ≠ Entry.unknown := fun eq => h (by rw [eq]; rfl)

/-! ## The command unit and the host link in the LIU's operations -/

@[simp] theorem State.append_unit (s : State) (q : QueueId) (i : Item) : (s.append q i).unit = s.unit := by
  unfold State.append
  split <;> rfl

@[simp] theorem State.append_host (s : State) (q : QueueId) (i : Item) : (s.append q i).host = s.host := by
  unfold State.append
  split <;> rfl

@[simp] theorem State.placeWaiting_unit (s : State) (q : QueueId) : (s.placeWaiting q).unit = s.unit := by
  unfold State.placeWaiting
  split
  · rfl
  · split <;> simp

@[simp] theorem State.placeWaiting_host (s : State) (q : QueueId) : (s.placeWaiting q).host = s.host := by
  unfold State.placeWaiting
  split
  · rfl
  · split <;> simp

theorem State.placeAllWaiting_unit_host (s : State) (q : QueueId) :
    (s.placeAllWaiting q).unit = s.unit ∧ (s.placeAllWaiting q).host = s.host := by
  unfold State.placeAllWaiting
  generalize s.liu.waiting q = waiting
  induction waiting generalizing s with
  | nil => exact ⟨rfl, rfl⟩
  | cons i rest ih => simpa using ih (s.placeWaiting q)

@[simp] theorem State.placeAllWaiting_unit (s : State) (q : QueueId) : (s.placeAllWaiting q).unit = s.unit :=
  (s.placeAllWaiting_unit_host q).1

@[simp] theorem State.placeAllWaiting_host (s : State) (q : QueueId) : (s.placeAllWaiting q).host = s.host :=
  (s.placeAllWaiting_unit_host q).2

@[simp] theorem State.place_unit (s : State) (q : QueueId) (i : Item) : (s.place q i).unit = s.unit := by
  unfold State.place
  dsimp only
  split <;> simp

@[simp] theorem State.place_host (s : State) (q : QueueId) (i : Item) : (s.place q i).host = s.host := by
  unfold State.place
  dsimp only
  split <;> simp

theorem Liu.shorter_setWaiting (l : Liu) (q : QueueId) (xs : List Item) : l.Shorter (l.setWaiting q xs) :=
  fun q' => (congrArg List.length (Liu.queue_setWaiting l q q' xs)).le

namespace Evolves

variable {w k : Prop} {a s : State} {q : QueueId} {i : Item} {r : Region} {x : Station} {c : Claim} {run : Running}
  {v : Version} {b tell echo : Bool} {u : Update}

/-! ## The LIU's queues (R154, R155) -/

theorem placeWaiting (h : Evolves w k a s) : Evolves w k a (s.placeWaiting q) := by
  unfold State.placeWaiting
  split
  · exact h
  · refine branch (fun room => (h.withLiu (Liu.shorter_setWaiting _ _ _)).append ?_) fun _ => h
    simpa [State.queueRoom] using room

theorem placeAllWaiting (h : Evolves w k a s) : Evolves w k a (s.placeAllWaiting q) := h.foldl placeWaiting

theorem place (h : Evolves w k a s) : Evolves w k a (s.place q i) :=
  branch (fun room => h.placeAllWaiting.append room) fun _ => h.placeAllWaiting.withLiu (Liu.shorter_setWaiting _ _ _)

theorem placeObject (h : Evolves w k a s) : Evolves w k a (s.placeObject i) :=
  branch (fun room => h.placeAllWaiting.append room) fun _ => h.placeAllWaiting.raiseObjectionsWithdrawn

theorem settleWaiting (h : Evolves w k a s) : Evolves w k a s.settleWaiting := h.placeAllWaiting.placeAllWaiting

/-! ## The command unit (R161 to R193) -/

theorem openSetback {clock : WaitClock} {reason : Reason} (h : Evolves w k a s) (free : ∀ p, s.unit ≠ .posting p) :
    Evolves w k a (s.openSetback run clock reason) := by
  refine (h.endCommand free).ite ?_
  cases clock with
  | noWait => exact h.endCommand free
  | till _ => exact h.proceed free
  | expired => exact h.endCommand free

theorem placeThenProceed {p : Progress} (h : Evolves w k a s) (free : ∀ p, s.unit ≠ .posting p) :
    Evolves w k a ((s.place q i).proceed run p) := h.place.proceed (by simpa using free)

theorem attemptClaim {clock : WaitClock} {before : Reason} (h : Evolves w k a s) (free : ∀ p, s.unit ≠ .posting p) :
    Evolves w k a (s.attemptClaim run clock before) :=
  (h.openSetback free).ite ((h.openSetback free).ite (h.placeThenProceed free))

theorem placeChunk {source : Option Region} {done : Nat} (h : Evolves w k a s) (free : ∀ p, s.unit ≠ .posting p) :
    Evolves w k a (s.placeChunk run source done b) := h.placeThenProceed free

theorem noticeContended (h : Evolves w k a s) : Evolves w k a (s.noticeContended r) := by
  unfold State.noticeContended
  split
  next running =>
    split
    · exact h.ifSo fun h => h.openSetback (State.not_posting_of_running running)
    · exact h
  next => exact h

theorem noticeBudgetFull (h : Evolves w k a s) : Evolves w k a (s.noticeBudgetFull r) := by
  unfold State.noticeBudgetFull
  split
  next running =>
    split
    · exact h.ifSo fun h => h.openSetback (State.not_posting_of_running running)
    · exact h
  next => exact h

theorem noticeClaimPending (h : Evolves w k a s) : Evolves w k a (s.noticeClaimPending r) := by
  unfold State.noticeClaimPending
  split
  next running =>
    split
    · exact h.ifSo fun h => h.proceed (State.not_posting_of_running running)
    · exact h
  next => exact h

theorem noticeObjected {reason : ObjectReason} (h : Evolves w k a s) : Evolves w k a (s.noticeObjected r reason) := by
  unfold State.noticeObjected
  split
  next running =>
    split
    · exact h.ifSo fun h => h.openSetback (State.not_posting_of_running running)
    · exact h
  next => exact h

theorem noticeConfirmed (h : Evolves w k a s) : Evolves w k a (s.noticeConfirmed r v) := by
  unfold State.noticeConfirmed
  split
  next running =>
    have free := State.not_posting_of_running running
    split
    · refine h.ifSo fun h => ite (h.place.endCommand ?_) (h.endCommand free)
      simpa [State.placeRelease] using free
    · exact h
  next => exact h

theorem noticeRegionNotCurrent (h : Evolves w k a s) : Evolves w k a (s.noticeRegionNotCurrent r) := by
  unfold State.noticeRegionNotCurrent
  split
  next running =>
    have free := State.not_posting_of_running running
    split
    · exact (h.endCommand free).ite h
    · exact (h.cancel.endCommand free).ite h
    · exact (h.cancel.endCommand free).ite ((h.cancel.endCommand free).ite h)
    · exact (h.endCommand free).ite h
    all_goals exact h
  next => exact h

theorem noticeUpdateApplied (h : Evolves w k a s) : Evolves w k a (s.noticeUpdateApplied r x) := by
  unfold State.noticeUpdateApplied
  split
  next running =>
    have free := State.not_posting_of_running running
    split
    · exact (h.proceed free).ite h
    · exact (h.proceed free).ite h
    · exact h
  next => exact h

theorem noticeLeftMember (h : Evolves w k a s) : Evolves w k a s.noticeLeftMember := by
  unfold State.noticeLeftMember
  split
  next running =>
    split
    · exact h
    · exact h.endCommand (State.not_posting_of_running running)
  next => exact h

theorem noticeLapsed (h : Evolves w k a s) : Evolves w k a (s.noticeLapsed r) := by
  unfold State.noticeLapsed
  split
  next running =>
    have free := State.not_posting_of_running running
    split
    iterate 4 exact (h.endCommand free).ite h
    all_goals exact h
  next => exact h

theorem noticeNoLongerHeld {cause : HoldingEnd} (h : Evolves w k a s) : Evolves w k a (s.noticeNoLongerHeld r cause) := by
  unfold State.noticeNoLongerHeld
  split
  next running =>
    have free := State.not_posting_of_running running
    refine ite ?_ h
    split
    · cases cause <;> exact h.endCommand free
    iterate 3 exact h.ite (h.endCommand free)
    all_goals exact h
  next => exact h

theorem noticeUpdateRefused {refused : Region} (h : Evolves w k a s) : Evolves w k a (s.noticeUpdateRefused r refused) := by
  unfold State.noticeUpdateRefused
  split
  next running =>
    have free := State.not_posting_of_running running
    refine ite ?_ h
    split
    · exact h.endCommand free
    · exact h.endCommand free
    · exact h
  next => exact h

theorem updateEchoed (h : Evolves w k a s) : Evolves w k a (s.updateEchoed u) := by
  unfold State.updateEchoed
  split
  next running =>
    have free := State.not_posting_of_running running
    refine ite ?_ h
    split
    · exact h.endCommand free
    · exact (h.endCommand free).ite ((h.endCommand free).ite ((h.endCommand free).ite (h.placeChunk free)))
    · exact h
  next => exact h

theorem renewEchoed (h : Evolves w k a s) : Evolves w k a (s.renewEchoed r) := by
  unfold State.renewEchoed
  split
  next running =>
    refine ite ?_ h
    split
    · exact h.endCommand (State.not_posting_of_running running)
    · exact h
  next => exact h

theorem commandEndWithoutArrival (h : Evolves w k a s) (free : ∀ p, s.unit ≠ .posting p) :
    Evolves w k a (s.commandEndWithoutArrival run) := by
  have aborted : Evolves w k a (if run.abort then (s.cancelCommandFrame run).endCommand run .aborted else s) :=
    (h.cancel.endCommand free).ite h
  unfold State.commandEndWithoutArrival
  split
  · exact aborted
  · exact aborted
  iterate 3 exact (h.cancel.endCommand free).ite aborted
  all_goals exact h

theorem abortRunning (h : Evolves w k a s) : Evolves w k a s.abortRunning := by
  unfold State.abortRunning
  split
  next running =>
    have free := State.not_posting_of_running running
    split
    · exact h.endCommand free
    · exact (h.setUnit free).ite (h.cancel.endCommand free)
    · exact h.setUnit free
    iterate 4 exact (h.setUnit free).ite (h.cancel.endCommand free)
    · exact h.endCommand free
  next => exact h

/-! ## Claims (spec/01, spec/02) -/

theorem tellEntry {e : Entry} (h : Evolves w k a s) (fits : s.Fits r e) : Evolves w k a (s.tellEntry r e) :=
  (h.setEntry fits).addChange

theorem settle {why : SettleReason} (h : Evolves w k a s)
    (known : s.entry r ≠ Entry.unknown ∨ s.station.transmits = true) : Evolves w k a (s.settle r why x tell) :=
  (h.changeEntry (.settling known)).cancel.ite (h.changeEntry (.settling known))

/-- An overheard claim is noted at a HELD or a SETTLING entry (R16). -/
theorem noteOverheard (h : Evolves w k a s) (known : (s.entry r).state ≠ .unknown)
    (unclaimed : ∀ c d, (s.entry r).state ≠ .claimed c d) : Evolves w k a (s.noteOverheard r c) := by
  refine h.ite (h.setEntry (.of_state known ?_ id))
  unfold Entry.sound
  cases state : (s.entry r).state with
  | unknown => exact absurd state known
  | claimed c d => exact absurd state (unclaimed c d)
  | _ => exact id

theorem claimAtDirectory (h : Evolves w k a s) : Evolves w k a (s.claimAtDirectory c r echo) := by
  have objected : Evolves w k a (if s.objectsTo c.station r then s.placeObject (.object c r false s.now) else s) :=
    h.placeObject.ite h
  have entry := ((s.placeObject_lineOnly (.object c r false s.now)).regionsKept.ite (s.objectsTo c.station r)).entry r
  unfold State.claimAtDirectory
  dsimp only
  split
  next => exact h
  next free => exact h.changeEntry (.of_state (by simp [free]) (fun _ => rfl) fun _ => rfl)
  next => exact objected
  next held => exact objected.noteOverheard (by simp [entry, held]) (by simp [entry, held])
  next settling => exact objected.noteOverheard (by simp [entry, settling]) (by simp [entry, settling])

theorem claimAtBudget (h : Evolves w k a s) : Evolves w k a (s.claimAtBudget c r) := by
  have kept : Evolves w k a { s with budget := s.budget.filter fun e => e.live s.now } :=
    h.withBudget (List.length_filter_le _ _).trans
  refine ite (branch (fun room => h.withBudget fun _ => ?_) fun _ => kept.ifSo placeObject) h
  have few : (s.budget.filter fun e => e.live s.now).length < Config.budgetLimit := by
    simpa [State.budgetRoom, State.budgetCount, List.countP_eq_length_filter] using room
  simpa using few

theorem claimAtBlocks (h : Evolves w k a s) : Evolves w k a (s.claimAtBlocks c r echo) :=
  ite (h.withFreeCount.claimAtBudget.claimAtDirectory.ite h.withFreeCount.claimAtDirectory.claimAtBudget)
    h.claimAtDirectory.claimAtBudget

theorem claimArrives {n : ClaimNumber} (h : Evolves w k a s) : Evolves w k a (s.claimArrives x r n echo) :=
  ite (h.claimAtBlocks.noticeClaimPending.ite h.claimAtBlocks.noticeContended)
    (h.claimAtBlocks.cancel.noticeContended.ite h.claimAtBlocks)

/-- The overheard claim of an entry is removed (R16, R20, R35). -/
theorem removeOverheard {p : Overheard → Bool} (h : Evolves w k a s) :
    Evolves w k a (if (s.entry r).overheard.any p then s.setEntry r { s.entry r with overheard := none } else s) := by
  refine branch (fun present => h.setEntry ⟨.inl fun unknown => ?_, fun sound => ?_, id⟩) fun _ => h
  · simp [unknown, Entry.unknown] at present
  · unfold Entry.sound at sound ⊢
    cases state : (s.entry r).state <;> simp_all

theorem dropOverheard (h : Evolves w k a s) : Evolves w k a (s.dropOverheard r c) := h.removeOverheard

/-- The entry of a pending claim after an OBJECT (R22 to R24). -/
theorem tellObjected {reason : ObjectReason} (h : Evolves w k a s) (claimed : (s.entry r).claimedAs c = true) :
    Evolves w k a (s.tellEntry r (s.objectedEntry (s.entry r) reason x v)) := by
  have pending : (s.entry r).state.view = .claimed c := by simpa [Entry.claimedAs] using claimed
  have known : (s.entry r).state ≠ .unknown := fun unknown => by simp [unknown, EntryState.view] at pending
  have known' := Or.inl (b := s.station.transmits = true) (Entry.ne_unknown_of_state known)
  refine h.tellEntry ?_
  cases reason with
  | held => exact .held known'
  | settling => exact .settling known'
  | claimed =>
    refine .of_state known (fun sound => ?_) fun _ => rfl
    unfold Entry.sound at sound
    cases state : (s.entry r).state <;> simp_all [EntryState.view, State.objectedEntry, Entry.sound]
  | budget => exact .of_state known (fun _ => rfl) fun _ => rfl

theorem confirm {d : Time} (h : Evolves w k a s) (claimed : (s.entry r).state = .claimed c d) :
    Evolves w k a (s.confirm r c) := by
  have held {tell : Bool} : Evolves w k a
      (s.changeEntry r { s.entry r with state := s.heldState c.station (s.now + s.leaseTime) } tell) :=
    h.changeEntry (.held (.inl (Entry.ne_unknown_of_state (by simp [claimed]))))
  exact ite (held.noticeConfirmed.place.ite held.noticeConfirmed) held

theorem adopt {o : Overheard} (h : Evolves w k a s) (present : (s.entry r).overheard = some o) :
    Evolves w k a (s.adopt r o) := by
  have held := h.tellEntry (r := r)
    (.held (x := o.claim.station) (l := s.now + s.leaseTime) (y := (s.entry r).lastOwner) (o := none)
      (.inl fun unknown => by simp [unknown, Entry.unknown] at present))
  exact held.cancel.ite held

theorem expireLease {l : Time} {side : OwnerSide} (h : Evolves w k a s) (held : (s.entry r).state = .held x l side) :
    Evolves w k a (s.expireLease r x) := by
  have settled := h.settle (why := .expired) (x := x) (tell := true)
    (.inl (Entry.ne_unknown_of_state (e := s.entry r) (by simp [held])))
  exact settled.noticeNoLongerHeld.ite settled

theorem expireSettle {why : SettleReason} {d : Time} (h : Evolves w k a s) (settling : (s.entry r).state = .settling why d) :
    Evolves w k a (s.expireSettle r) := h.changeEntry (.of_state (by simp [settling]) (fun _ => rfl) fun _ => rfl)

theorem lapse {l d : Time} (h : Evolves w k a s) (held : (s.entry r).state = .held x l (.running d)) :
    Evolves w k a (s.lapse r x l) := by
  have lapsed : Evolves w k a (s.setEntry r { s.entry r with state := .held x l .lapsed }) :=
    h.setEntry (.of_state (by simp [held]) (fun _ => rfl) fun side =>
      (State.sideSound_of_held rfl).2 (by simpa using (State.sideSound_of_held held).1 side))
  exact lapsed.cancel.noticeLapsed.ite lapsed.cancel.noticeLapsed.place

theorem restartLease (h : Evolves w k a s) : Evolves w k a (s.restartLease r) := by
  unfold State.restartLease
  split
  next o l side held =>
    refine h.setEntry (.of_state (by simp [held]) (fun _ => rfl) fun sound => ?_)
    have own := (State.sideSound_of_held held).1 sound
    refine (State.sideSound_of_held rfl).2 ?_
    cases side <;> simpa using own
  next => exact h

end Evolves

end Sys2Proof.Machine
end

section
/-! SUPPORT. What the operations of the replicas and the transfer unit keep: one lemma per operation (spec/03, spec/04). -/

-- One declaration at a time: side by side, the case splits of these proofs want more threads than the memory limit allows.
set_option Elab.async false

namespace Sys2Proof.Machine

/-! ## A change of condition (R53, R69, R90) -/

/-- The repair list after the condition of region `r` became `c` (R69, R90). -/
def State.repairListAfter (s : State) (r : Region) (c : Condition) : List Region :=
  if c = .stale then (if s.inReception r then s.transfer.repairList else s.transfer.repairList ++ [r])
  else if (s.replica r).condition = .stale then s.transfer.repairList.filter (· != r)
  else s.transfer.repairList

/-- The condition of region `r` becomes `c`, with its place in the repair list. -/
def State.recondition (s : State) (r : Region) (c : Condition) : State :=
  (s.setReplica r { s.replica r with condition := c }).withTransfer fun x => { x with repairList := s.repairListAfter r c }

theorem State.changeCondition_same {s : State} {r : Region} {c : Condition} (same : (s.replica r).condition = c) :
    s.changeCondition r c = s := by
  simp [State.changeCondition, same]

theorem State.changeCondition_eq {s : State} {r : Region} {c : Condition} (change : (s.replica r).condition ≠ c) :
    s.changeCondition r c =
      if (s.replica r).condition = .current then ((s.recondition r c).addChange r).noticeRegionNotCurrent r
      else (s.recondition r c).addChange r := by
  have moved : (if c = .stale then
        if ((s.setReplica r { s.replica r with condition := c }).addChange r).inReception r then
          (s.setReplica r { s.replica r with condition := c }).addChange r
        else ((s.setReplica r { s.replica r with condition := c }).addChange r).withTransfer fun x =>
          { x with repairList := x.repairList ++ [r] }
      else if (s.replica r).condition = .stale then
        ((s.setReplica r { s.replica r with condition := c }).addChange r).withTransfer fun x =>
          { x with repairList := x.repairList.filter (· != r) }
      else (s.setReplica r { s.replica r with condition := c }).addChange r) = (s.recondition r c).addChange r := by
    have reception : ((s.setReplica r { s.replica r with condition := c }).addChange r).inReception r = s.inReception r :=
      rfl
    unfold State.recondition State.repairListAfter
    rw [reception]
    split
    · split <;> rfl
    · split <;> rfl
  simp only [State.changeCondition, change, if_false, moved]

theorem State.replica_recondition (s : State) (r q : Region) (c : Condition) :
    (s.recondition r c).replica q = if q = r then { s.replica r with condition := c } else s.replica q :=
  State.replica_setReplica s r q _

/-- A change of condition keeps the repair list sound, but for a region in an open refresh reception, which may become STALE
only (R81, R90). -/
theorem State.recondition_repairListSound {s : State} {r : Region} {c : Condition} (change : (s.replica r).condition ≠ c)
    (safe : ∀ rec, s.transfer.reception = some rec → rec.kind = .refresh → rec.region = r → c = .stale)
    (sound : s.repairListSound) : (s.recondition r c).repairListSound := by
  obtain ⟨nodup, stale, apart⟩ := sound
  have listed : (s.replica r).condition ≠ .stale → r ∉ s.transfer.repairList := fun ne mem => ne (stale r mem)
  have conditions (q : Region) : ((s.recondition r c).replica q).condition = if q = r then c else (s.replica q).condition := by
    rw [State.replica_recondition]
    split <;> rfl
  refine ⟨?_, fun q mem => ?_, fun rec opened refresh => ?_⟩
  · show (s.repairListAfter r c).Nodup
    unfold State.repairListAfter
    split
    next eq =>
      split
      · exact nodup
      · refine List.nodup_append.2 ⟨nodup, by simp, fun q mem q' mem' same => ?_⟩
        rw [same, List.mem_singleton.1 mem'] at mem
        exact listed (eq ▸ change) mem
    next =>
      split
      · exact nodup.filter _
      · exact nodup
  · rw [conditions]
    have mem : q ∈ s.repairListAfter r c := mem
    unfold State.repairListAfter at mem
    by_cases eq : c = .stale
    · split
      next => exact eq
      next ne =>
        refine stale q ?_
        simp only [eq, if_true] at mem
        split at mem
        · exact mem
        · simpa [ne] using mem
    · simp only [eq, if_false] at mem
      have mem' : q ∈ s.transfer.repairList ∧ q ≠ r := by
        split at mem
        · simpa using mem
        next ne => exact ⟨mem, fun eq' => listed ne (eq' ▸ mem)⟩
      rw [if_neg mem'.2]
      exact stale q mem'.1
  · obtain ⟨recStale, away⟩ := apart rec opened refresh
    have reception : s.transfer.reception = some rec := opened
    rw [conditions]
    by_cases eq : rec.region = r
    · refine absurd ?_ change
      rw [safe rec reception refresh eq, ← eq, recStale]
    · rw [if_neg eq]
      refine ⟨recStale, fun mem => away ?_⟩
      have mem : rec.region ∈ s.repairListAfter r c := mem
      unfold State.repairListAfter at mem
      split at mem
      · split at mem
        · exact mem
        · simpa [eq] using mem
      · split at mem
        · simpa [eq] using mem
        · exact mem

/-! ## The end of a reception (R88) -/

theorem State.abandonReception_none {s : State} (closed : s.transfer.reception = none) : s.abandonReception = s := by
  simp [State.abandonReception, closed]

theorem State.abandonReception_eq {s : State} {rec : Reception} (opened : s.transfer.reception = some rec) :
    s.abandonReception = (s.withTransfer fun x =>
      { x with reception := none
               repairList := if rec.kind = .refresh then x.repairList ++ [rec.region] else x.repairList }).raiseTransfersAbandoned := by
  unfold State.abandonReception
  rw [opened]
  dsimp only
  cases rec.kind <;> rfl

/-! ## Jobs -/

theorem State.mapJobs_length (s : State) (f : Job → Job) : (s.mapJobs f).transfer.jobs.length = s.transfer.jobs.length := by
  simp [State.mapJobs]

namespace Evolves

variable {w k : Prop} {a s : State} {q : QueueId} {i : Item} {r : Region} {x j : Station} {c : Condition} {rec : Reception}
  {v : Version} {b tell echo : Bool} {u : Update} {f : PartField}

/-! ## Replicas (spec/03) -/

theorem recondition (h : Evolves w k a s) (change : (s.replica r).condition ≠ c)
    (safe : s.repairListSound →
      ∀ rec, s.transfer.reception = some rec → rec.kind = .refresh → rec.region = r → c = .stale) :
    Evolves w k a (s.recondition r c) := by
  have contents (q : Region) : ((s.recondition r c).replica q).content = (s.replica q).content ∧
      ((s.recondition r c).replica q).version = (s.replica q).version := by
    rw [State.replica_recondition]
    split
    next eq => rw [eq]; exact ⟨rfl, rfl⟩
    next => exact ⟨rfl, rfl⟩
  have step : Evolves w k s (s.recondition r c) := { (refl s : Evolves w k s s) with
    queues := fun b => ⟨b.1, b.2, b.3, b.4, b.5⟩
    image := fun sound => ⟨fun q => (contents q).1 ▸ sound.1 q, sound.2⟩
    written := fun _ => contents
    repair := fun _ sound => State.recondition_repairListSound change (safe sound) sound }
  exact h.trans step

theorem changeCondition (h : Evolves w k a s)
    (safe : s.repairListSound →
      ∀ rec, s.transfer.reception = some rec → rec.kind = .refresh → rec.region = r → c = .stale) :
    Evolves w k a (s.changeCondition r c) := by
  by_cases same : (s.replica r).condition = c
  · rw [State.changeCondition_same same]
    exact h
  · rw [State.changeCondition_eq same]
    exact (h.recondition same safe).addChange.noticeRegionNotCurrent.ite (h.recondition same safe).addChange

theorem becomeStale (h : Evolves w k a s) : Evolves w k a (s.changeCondition r .stale) :=
  h.changeCondition fun _ _ _ _ _ => rfl

theorem versionGap (h : Evolves w k a s) : Evolves w k a (s.versionGap r) := h.becomeStale.raiseVersionGaps

theorem checkVersion (h : Evolves w k a s) : Evolves w k a (s.checkVersion r v) := h.versionGap.ite h

/-- The refresh attempts of a replica change, and neither its condition nor its content. -/
theorem setAttempts {n : Nat} (h : Evolves w k a s) : Evolves w k a (s.setReplica r { s.replica r with attempts := n }) :=
  h.setReplica rfl (fun _ sound => sound.1 r) fun _ => ⟨rfl, rfl⟩

theorem returnLost (h : Evolves w k a s) : Evolves w k a (s.returnLost r) := h.setAttempts.becomeStale.ite h

theorem abandonReception (h : Evolves w k a s) : Evolves w k a s.abandonReception := by
  cases reception : s.transfer.reception with
  | none => rw [State.abandonReception_none reception]; exact h
  | some rec =>
    rw [State.abandonReception_eq reception]
    refine raiseTransfersAbandoned (h.withTransfer (reception := fun _ _ none => nomatch none) (repair := fun _ sound => ?_))
    obtain ⟨nodup, stale, apart⟩ := sound
    refine ⟨?_, fun q mem => ?_, fun _ none => nomatch none⟩
    · simp only [State.withTransfer_transfer]
      split
      next refresh =>
        refine List.nodup_append.2 ⟨nodup, by simp, fun q mem q' mem' same => ?_⟩
        rw [same, List.mem_singleton.1 mem'] at mem
        exact (apart rec reception refresh).2 mem
      next => exact nodup
    · simp only [State.withTransfer_transfer] at mem
      split at mem
      next refresh =>
        rcases List.mem_append.1 mem with mem | mem
        · exact stale q mem
        · rw [List.mem_singleton.1 mem]; exact (apart rec reception refresh).1
      next => exact stale q mem

theorem keepForCatchUp (h : Evolves w k a s) (fits : updateFits u = true) : Evolves w k a (s.keepForCatchUp x u) := by
  unfold State.keepForCatchUp
  split
  next => exact h
  next rec reception =>
    refine branch (fun room => ?_) fun _ => h.abandonReception
    refine h.withTransfer (reception := fun sound rec' eq => ?_) (repair := fun _ sound => ?_)
    · obtain rfl := Option.some.inj eq
      have former := sound.2.2 rec reception
      simp only [Reception.sound, Bool.and_eq_true, decide_eq_true_eq] at former ⊢
      exact ⟨⟨former.1.1, by simpa using room⟩, by simpa [fits] using former.2⟩
    · refine ⟨sound.1, sound.2.1, fun rec' eq refresh => ?_⟩
      obtain rfl := Option.some.inj eq
      exact sound.2.2 rec reception refresh

theorem updateAtCurrent (h : Evolves True k a s) (fits : updateFits u = true) :
    Evolves True k a (s.updateAtCurrent x u echo) := by
  have applied : Evolves True k a (s.setReplica u.region ((s.replica u.region).applied u)) :=
    h.setReplica rfl (fun _ sound => Replica.applied_wf (sound.1 _) (by simpa [updateFits] using fits)) fun no => absurd trivial no
  exact ite (applied.ite applied.addChange).noticeUpdateApplied h.versionGap

theorem updateAtReplica {answer : OwnerAnswer} (h : Evolves True k a s) (fits : updateFits u = true) :
    Evolves True k a (s.updateAtReplica answer x u echo) := by
  cases answer with
  | unknown => exact h
  | no => exact (h.becomeStale.ite h).raiseForeignUpdates
  | yes => exact (h.updateAtCurrent fits).ite ((h.keepForCatchUp fits).ite (h.returnLost.ite h))

theorem updateAtDirectory (h : Evolves w k a s) (known : (s.entry u.region).isUnknown = false) :
    Evolves w k a (s.updateAtDirectory x u echo) := by
  refine h.restartLease.ifSo fun restarted => restarted.settle (.inl (Entry.ne_unknown_of_state ?_))
  have state : (s.entry u.region).state ≠ .unknown := fun eq => by simp [Entry.isUnknown, eq, EntryState.view] at known
  unfold State.restartLease
  split
  · simp
  · exact state

theorem updateArrives (h : Evolves True k a s) (fits : updateFits u = true) :
    Evolves True k a (s.updateArrives x u echo) := by
  have directory : Evolves True k a (if s.ownerAnswer u.region x = .yes then s.updateAtDirectory x u echo else s) :=
    branch (fun yes => h.updateAtDirectory (by
      unfold State.ownerAnswer at yes
      split at yes <;> simp_all)) fun _ => h
  exact ifSo (ifSo (directory.updateAtReplica fits) updateEchoed) noticeNoLongerHeld

theorem renewArrives (h : Evolves w k a s) : Evolves w k a (s.renewArrives x r echo) := by
  unfold State.renewArrives
  refine ifSo ?_ renewEchoed
  split
  · exact h.restartLease
  · exact h.raiseForeignUpdates
  · exact h

theorem releaseArrives (h : Evolves w k a s) : Evolves w k a (s.releaseArrives x r v echo) := by
  refine branch (fun yes => ?_) fun _ => h
  have settled : Evolves w k a (s.settle r .released x (!echo)) := h.settle (.inl (Entry.ne_unknown_of_state fun eq => by
    simp [State.ownerAnswer, Entry.isUnknown, eq, EntryState.view] at yes))
  exact settled.checkVersion.returnLost.noticeNoLongerHeld.ite settled.checkVersion.returnLost

theorem objectArrives {c : Claim} {reason : ObjectReason} (h : Evolves w k a s) :
    Evolves w k a (s.objectArrives c r reason x v) := by
  have dropped : Evolves w k a ((s.cancel .reply (Item.isObjectTo c)).dropOverheard r c) := h.cancel.dropOverheard
  unfold State.objectArrives
  refine branch (fun claimed => ifSo ?_ noticeObjected) fun _ => dropped
  split
  · exact (dropped.tellObjected claimed).checkVersion
  · exact (dropped.tellObjected claimed).checkVersion
  · exact dropped.tellObjected claimed
  · exact dropped.tellObjected claimed

/-! ## Transfers (spec/04, spec/06) -/

theorem mapJobs {g : Job → Job} (h : Evolves w k a s) : Evolves w k a (s.mapJobs g) :=
  h.withTransfer (jobs := by simp)

theorem addJob {job : Job} (h : Evolves w k a s) (room : s.transfer.jobs.length < Config.jobLimit) :
    Evolves w k a (s.withTransfer fun y => { y with jobs := y.jobs ++ [job] }) :=
  h.withTransfer (jobs := fun _ => by simpa using room)

theorem startRefresh (h : Evolves w k a s) : Evolves w k a (s.startRefresh r x) := h.mapJobs.place

theorem syncGoOn {n : Nat} (h : Evolves w k a s) : Evolves w k a (s.syncGoOn j n) := by
  unfold State.syncGoOn
  split
  · exact h.mapJobs.place
  · exact h.mapJobs.place

theorem serveNext (h : Evolves w k a s) : Evolves w k a s.serveNext := by
  unfold State.serveNext
  refine h.ite ?_
  split
  · exact h.startRefresh
  · exact h.syncGoOn
  · exact h.mapJobs.place
  · exact h

theorem endJobs {p : Job → Bool} (h : Evolves w k a s) : Evolves w k a (s.endJobs p) :=
  serveNext (h.withTransfer (jobs := (List.length_filter_le _ _).trans))

theorem dropFrames {p : Item → Bool} (h : Evolves w k a s) : Evolves w k a (s.dropFrames p) :=
  h.withLiu ((s.liu.cancel_shorter _ _).trans (Liu.orphanFlight_shorter _ _ _))

theorem dropJobs {p : Job → Bool} {frames : Item → Bool} (h : Evolves w k a s) : Evolves w k a (s.dropJobs p frames) :=
  h.dropFrames.endJobs

theorem afterRegion {n : Nat} (h : Evolves w k a s) : Evolves w k a (s.afterRegion j n) := by
  unfold State.afterRegion
  split
  · exact h.mapJobs.startRefresh
  · exact h.syncGoOn

theorem refreshPartEchoed (h : Evolves w k a s) : Evolves w k a (s.refreshPartEchoed f) :=
  h.ifSo fun h => h.endJobs.ite h.mapJobs.place

theorem snapPartEchoed (h : Evolves w k a s) : Evolves w k a (s.snapPartEchoed f) :=
  h.ifSo fun h => h.afterRegion.ite h.mapJobs.place

theorem dirEchoed {g : Group} (h : Evolves w k a s) : Evolves w k a (s.dirEchoed j g) :=
  h.ifSo fun h => h.syncGoOn.ite h.mapJobs.place

theorem syncEndEchoed (h : Evolves w k a s) : Evolves w k a (s.syncEndEchoed j) := h.ifSo endJobs

theorem suppressRefresh (h : Evolves w k a s) : Evolves w k a (s.suppressRefresh f) := h.ifSo dropJobs

theorem suppressSync (h : Evolves w k a s) : Evolves w k a (s.suppressSync j) := h.ifSo dropJobs

theorem dropSync (h : Evolves w k a s) : Evolves w k a (s.dropSync j) := h.ifSo dropJobs

theorem dropJobsFor (h : Evolves w k a s) : Evolves w k a (s.dropJobsFor x) := h.ifSo dropJobs

theorem refreshRequested (h : Evolves w k a s) : Evolves w k a (s.refreshRequested r x) :=
  branch (fun asked => (h.addJob (by simp_all)).serveNext) fun _ => h

theorem syncRequested (h : Evolves w k a s) : Evolves w k a (s.syncRequested j) :=
  branch (fun asked => (h.addJob (by simp_all)).serveNext) fun _ => h

/-- The reception that part 0 opens is sound (R80, R81). -/
theorem opened_sound {kind : TransferKind} {d : Time} (good : f.goodForm = true) :
    Reception.sound { region := f.region, source := x, kind := kind, version := f.version, next := 1,
                      buffer := writeBytes [] 0 f.data, catchUp := [], deadline := d } = true := by
  have length : f.data.length = 32 := by simpa [PartField.goodForm] using good
  simp [Reception.sound, writeBytes_wf (m := []) (a := 0) (bs := f.data) rfl (by omega)]

theorem openRefresh (h : Evolves w k a s) (good : f.goodForm = true) : Evolves w k a (s.openRefresh x f) := by
  refine branch (fun asked => ?_) fun _ => h
  have head : s.transfer.repairList.head? = some f.region := by simp_all
  refine cancel (h.withTransfer (f := fun y => { y with
    reception := some { region := f.region, source := x, kind := .refresh, version := f.version, next := 1,
                        buffer := writeBytes [] 0 f.data, catchUp := [], deadline := s.now + Config.partTimeout }
    repairList := y.repairList.filter (· != f.region), repairStage := .idle, refreshTimer := none })
    (reception := fun _ rec eq => ?_) (repair := fun _ sound => ?_))
  · obtain rfl := Option.some.inj eq
    exact opened_sound good
  · refine ⟨sound.1.filter _, fun q mem => sound.2.1 q (List.mem_of_mem_filter mem), fun rec eq _ => ?_⟩
    obtain rfl := Option.some.inj eq
    exact ⟨sound.2.1 _ (List.mem_of_mem_head? head), by simp⟩

theorem openSnap (h : Evolves w k a s) (good : f.goodForm = true) : Evolves w k a (s.openSnap x f) := by
  refine branch (fun asked => ?_) fun _ => h
  refine h.withTransfer (f := fun y => { y with
      reception := some { region := f.region, source := x, kind := .snap, version := f.version, next := 1,
                          buffer := writeBytes [] 0 f.data, catchUp := [], deadline := s.now + Config.partTimeout } })
    (reception := fun _ rec eq => ?_) (repair := fun _ sound => ⟨sound.1, sound.2.1, fun rec eq kind => ?_⟩)
  · obtain rfl := Option.some.inj eq
    exact opened_sound good
  · obtain rfl := Option.some.inj eq
    cases kind

/-- The installation closes the record and writes the replica (R86). -/
theorem install {m : Memory} (h : Evolves True k a s) (opened : s.transfer.reception = some rec)
    (content : rec.sound = true → Memory.wf m = true) : Evolves True k a (s.install rec m) := by
  have closed : Evolves True k a (s.withTransfer fun y => { y with reception := none }) :=
    h.withTransfer (reception := fun _ _ eq => nomatch eq) (repair := fun _ sound => ⟨sound.1, sound.2.1, fun _ eq => nomatch eq⟩)
  have written : Evolves True k a ((s.withTransfer fun y => { y with reception := none }).setReplica rec.region
      { s.replica rec.region with content := m, version := rec.version, attempts := 0 }) :=
    closed.setReplica rfl (fun before _ => content ((h.image before).2.2 rec opened)) fun no => absurd trivial no
  exact (written.changeCondition (fun _ _ eq => nomatch eq)).addChange

theorem replayCatchUp {es : List CatchUp} (h : Evolves True k a s)
    (fits : a.imageSound → ∀ e ∈ es, updateFits e.update = true) : Evolves True k a (s.replayCatchUp r v es) := by
  induction es generalizing s with
  | nil => exact h
  | cons e rest ih =>
    have rests : a.imageSound → ∀ e ∈ rest, updateFits e.update = true := fun sound e mem => fits sound e (.tail _ mem)
    have applied : Evolves True k a (s.setReplica r ((s.replica r).applied e.update)) :=
      h.setReplica rfl (fun before sound => Replica.applied_wf (sound.1 r) (by
        simpa [updateFits] using fits before e (.head _))) fun no => absurd trivial no
    exact (ih h rests).ite (ite (ih applied.addChange rests) h.versionGap)

/-- The receive side at a part, and the catch-up entries that it leaves to be replayed (R83, R87). -/
theorem partAtOpen {kind : TransferKind} (opened : s.transfer.reception = some rec) (good : f.goodForm = true) :
    Evolves True k s (s.partAtOpen rec kind x f).1 ∧
      (s.imageSound → ∀ e ∈ (s.partAtOpen rec kind x f).2, updateFits e.update = true) := by
  have length : f.data.length = 32 := by simpa [PartField.goodForm] using good
  have content (sound : rec.sound = true) : Memory.wf (writeBytes rec.buffer (Config.partSize * f.part.val) f.data) = true := by
    simp only [Reception.sound, Bool.and_eq_true] at sound
    refine writeBytes_wf sound.1.1 ?_
    simp only [Config.partSize]
    omega
  unfold State.partAtOpen
  split
  · split
    · dsimp only
      split
      · refine ⟨(refl s).install opened content, fun sound => ?_⟩
        have former := sound.2.2 rec opened
        simp only [Reception.sound, Bool.and_eq_true] at former
        simpa using former.2
      · refine ⟨(refl s).withTransfer (f := fun y => { y with
            reception := some { rec with
              buffer := writeBytes rec.buffer (Config.partSize * f.part.val) f.data, next := rec.next + 1,
              deadline := s.now + Config.partTimeout } })
          (reception := fun sound rec' eq => ?_) (repair := fun _ sound => ?_), by simp⟩
        · obtain rfl := Option.some.inj eq
          have former := sound.2.2 rec opened
          have kept := content former
          simp only [Reception.sound, Bool.and_eq_true] at former ⊢
          exact ⟨⟨kept, former.1.2⟩, former.2⟩
        · refine ⟨sound.1, sound.2.1, fun rec' eq refresh => ?_⟩
          obtain rfl := Option.some.inj eq
          exact sound.2.2 rec opened refresh
    · exact ⟨(refl s).abandonReception, by simp⟩
  · exact ⟨refl s, by simp⟩

theorem partReceived {kind : TransferKind} (good : f.goodForm = true) :
    Evolves True k s (s.partReceived kind x f).1 ∧
      (s.imageSound → ∀ e ∈ (s.partReceived kind x f).2, updateFits e.update = true) := by
  unfold State.partReceived
  split
  next opened =>
    split
    · exact partAtOpen opened good
    · exact ⟨refl s, by simp⟩
  next =>
    split
    · cases kind with
      | refresh => exact ⟨(refl s).openRefresh good, by simp⟩
      | snap => exact ⟨(refl s).openSnap good, by simp⟩
    · exact ⟨refl s, by simp⟩

theorem receivePart {kind : TransferKind} (h : Evolves True k a s) (good : f.goodForm = true) :
    Evolves True k a (s.receivePart kind x f).1 :=
  h.trans ((partReceived good).1.replayCatchUp (partReceived (k := k) good).2)

theorem requestRepair (h : Evolves w k a s) : Evolves w k a s.requestRepair := by
  unfold State.requestRepair
  dsimp only
  split
  · refine branch (fun asked => ?_) fun _ => h.placeAllWaiting
    exact (h.placeAllWaiting.append (by simp_all)).withTransfer
  · exact h.placeAllWaiting

theorem refreshReqEchoed (h : Evolves w k a s) : Evolves w k a s.refreshReqEchoed := h.ifSo fun h => h.withTransfer

theorem refreshTimedOut (h : Evolves w k a s) : Evolves w k a s.refreshTimedOut := by
  unfold State.refreshTimedOut
  dsimp only
  split
  next => exact h.withTransfer.withTransfer
  next r rest list =>
    have counted := (h.withTransfer (f := fun y => { y with refreshTimer := none })).setAttempts (r := r)
      (n := (s.replica r).attempts + 1)
    refine ite counted.place.withTransfer ?_
    refine (counted.changeCondition fun sound rec opened refresh eq => ?_).withTransfer
      (repair := fun _ sound => ⟨sound.1.filter _, fun q mem => sound.2.1 q (List.mem_of_mem_filter mem),
        fun rec opened refresh => ⟨(sound.2.2 rec opened refresh).1, fun mem =>
          (sound.2.2 rec opened refresh).2 (List.mem_of_mem_filter mem)⟩⟩)
    refine absurd ?_ (sound.2.2 rec opened refresh).2
    rw [eq]
    exact list ▸ List.mem_cons_self

theorem emptyJobs (h : Evolves w k a s) : Evolves w k a s.emptyJobs := by
  have emptied : Evolves w k a (s.withTransfer fun y => { y with jobs := [], buffer := none }) :=
    h.withTransfer (jobs := fun _ => Nat.zero_le _) (buffer := fun _ _ eq => nomatch eq)
  exact withLiu (f := fun l => l.markFlight .reply Item.isJobFrame) (emptied.dropFrames (p := Item.isJobFrame))
    (Liu.markFlight_shorter _ _ _)

theorem emptyTransfer (h : Evolves w k a s) : Evolves w k a s.emptyTransfer := by
  have emptied := h.emptyJobs.withTransfer (f := fun y => { y with
      repairList := [], repairStage := .idle, refreshTimer := none, reception := none })
    (reception := fun _ _ eq => nomatch eq) (repair := fun _ _ => ⟨List.nodup_nil, by simp, fun _ eq => nomatch eq⟩)
  exact emptied

end Evolves

end Sys2Proof.Machine
end

section
/-! SUPPORT. The entries into the station states (spec/05), each as one change of the records beside the LIU, the command unit
and the host link: what it leaves in the directory, the replicas, the transfer unit and the membership controller. -/

-- One declaration at a time: side by side, the case splits of these proofs want more threads than the memory limit allows.
set_option Elab.async false

namespace Sys2Proof.Machine

/-! ## The records beside the LIU, the command unit and the host link -/

/-- What `LineOnly` compares, as a state: the rest is as after reset. -/
def State.core (s : State) : State :=
  { s with claimCounter := 0, liu := Liu.reset 0, unit := .idle, host := { HostLink.reset with config := s.host.config } }

theorem LineOnly.core {s t : State} (h : LineOnly s t) : t.core = s.core := by
  simp only [State.core, h.now, h.powered, h.directory, h.budget, h.replicas, h.transfer, h.membership, h.freeCount,
    h.pending, h.config, h.lastReset]

/-- What a state's records are, from the state that it is but for the LIU, the command unit and the host link. -/
theorem LineOnly.of_core {s t : State} (h : t.core = s.core) : LineOnly s t :=
  have field {α : Type} (f : State → α) : f t.core = f s.core := congrArg f h
  ⟨field State.now, field State.powered, field State.directory, field State.budget, field State.replicas,
    field State.transfer, field State.membership, field State.freeCount, field State.pending,
    field fun u => u.host.config, field State.lastReset⟩

namespace State

/-- Every directory entry is `e`. -/
def withDirectory (s : State) (e : Entry) : State := { s with directory := Vector.replicate 64 e }

def withReplicas (s : State) (v : Vector Replica 64) : State := { s with replicas := v }

theorem withMembership_fuse (s : State) (f g : Membership → Membership) :
    (s.withMembership f).withMembership g = s.withMembership fun m => g (f m) := rfl

theorem core_now (s : State) : s.core.now = s.now := rfl

theorem core_withMembership (s : State) (f : Membership → Membership) :
    (s.withMembership f).core = s.core.withMembership f := rfl

theorem core_withTransfer (s : State) (f : Transfer → Transfer) : (s.withTransfer f).core = s.core.withTransfer f := rfl

theorem core_withLiu (s : State) (f : Liu → Liu) : (s.withLiu f).core = s.core := rfl

theorem core_addChanges (s : State) (rs : List Region) : (s.addChanges rs).core = s.core := by
  rw [addChanges_eq]
  rfl

/-! ## The membership table and the station state -/

/-- The membership table after this station's own entry became `p` (R103). -/
def ownTable (s : State) (p : Presence) : Vector MemberEntry 16 :=
  match s.self with
  | none => s.membership.table
  | some x =>
    s.membership.table.set x
      (match p with
        | .absent => MemberEntry.absent
        | p => { presence := p, lastHeard := (s.member x).lastHeard, absence := none })

theorem setOwnEntry_eq (s : State) (p : Presence) :
    s.setOwnEntry p = s.withMembership fun m => { m with table := s.ownTable p } := by
  unfold ownTable setOwnEntry
  generalize s.self = own
  cases own <;> rfl

theorem core_setOwnEntry (s : State) (p : Presence) :
    (s.setOwnEntry p).core = s.core.withMembership fun m => { m with table := s.core.ownTable p } := by
  rw [setOwnEntry_eq]
  rfl

theorem setOwnEntry_now (s : State) (p : Presence) : (s.setOwnEntry p).now = s.now := by
  rw [setOwnEntry_eq]
  rfl

theorem core_setStation (s : State) (st : StationState) :
    (s.setStation st).core = s.core.withMembership fun m => { m with station := st } := rfl

/-! ## The directory, the replicas, the queues and the transfer unit at an entry (R2, R51, R72, R157) -/

theorem core_resetDirectory (s : State) (e : Entry) : (s.resetDirectory e).core = s.core.withDirectory e := by
  unfold resetDirectory
  exact core_addChanges _ _

/-- Every replica UNSYNCED, its bytes and its version kept (R51). -/
def unsynced (s : State) : Vector Replica 64 :=
  s.replicas.map fun (rep : Replica) => { rep with condition := .unsynced, attempts := 0 }

theorem unsyncReplicas_eq (s : State) :
    s.unsyncReplicas =
      let t := (s.withReplicas s.unsynced).addChanges (allRegions.filter fun r => (s.replica r).condition != .unsynced)
      match s.running with
      | some run => if s.isCurrent run.region then t.noticeRegionNotCurrent run.region else t
      | none => t := by
  have running : ((s.withReplicas s.unsynced).addChanges
      (allRegions.filter fun r => (s.replica r).condition != .unsynced)).running = s.running := by
    rw [addChanges_eq]
    rfl
  show (match ((s.withReplicas s.unsynced).addChanges _).running with
    | some run => if _ then _ else _
    | none => _) = _
  rw [running]
  cases s.running <;> rfl

theorem core_unsyncReplicas (s : State) : s.unsyncReplicas.core = s.core.withReplicas s.core.unsynced := by
  have changed : ((s.withReplicas s.unsynced).addChanges
      (allRegions.filter fun r => (s.replica r).condition != .unsynced)).core = s.core.withReplicas s.core.unsynced :=
    core_addChanges _ _
  rw [unsyncReplicas_eq]
  dsimp only
  split
  · split
    · exact (noticeRegionNotCurrent_lineOnly _ _).core.trans changed
    · exact changed
  · exact changed

/-- Every replica CURRENT at version 0 with every byte 0 (R51). -/
def freshVector : Vector Replica 64 := Vector.replicate 64 { Replica.reset with condition := .current }

theorem core_freshReplicas (s : State) : s.freshReplicas.core = s.core.withReplicas freshVector := by
  unfold freshReplicas
  exact core_addChanges _ _

theorem core_emptyTransfer (s : State) : s.emptyTransfer.core = s.core.withTransfer fun _ => Transfer.empty := rfl

theorem core_clearAttempts (s : State) : s.clearAttempts.core = s.core.clearAttempts := rfl

theorem core_withdrawQueue (s : State) (q : QueueId) (exempt : Item → Bool) : (s.withdrawQueue q exempt).core = s.core := rfl

theorem core_withdrawQueues (s : State) : s.withdrawQueues.core = s.core := rfl

theorem core_noticeLeftMember (s : State) : s.noticeLeftMember.core = s.core := s.noticeLeftMember_lineOnly.core

/-- *left MEMBER* is handed under a condition. -/
theorem core_noticeLeftMember_ite (s : State) {p : Prop} [Decidable p] :
    (if p then s.noticeLeftMember else s).core = s.core := by
  split
  · exact s.core_noticeLeftMember
  · rfl

/-! ## The entries -/

/-- The membership controller after the entry into LISTENING (R100). -/
def listening (s : State) : Membership :=
  { s.membership with
    station := .listening, table := s.ownTable .absent, listenTimer := some (s.now + Config.listenPeriod)
    isolationTimer := none, memberHeard := false }

theorem core_enterListening (s : State) : s.enterListening.core = s.core.withMembership fun _ => s.core.listening := by
  simp only [enterListening, core_setStation, core_withLiu, core_withMembership, core_setOwnEntry, setOwnEntry_now]
  rfl

theorem core_placeAttempt (s : State) :
    s.placeAttempt.core = s.core.withMembership fun m => { m with join := m.join.map fun j => { j with gap := none } } := by
  unfold placeAttempt
  exact (State.place_lineOnly _ _ _).core

/-- The records after the last attempt, before the entry into LISTENING (R98, R125). -/
def joinFailed (s : State) : State :=
  (((s.withDirectory Entry.unknown).withTransfer fun _ => Transfer.empty).clearAttempts).withMembership fun m =>
    { m with faultCause := .joinFailed, join := none }

theorem core_failJoining (s : State) :
    s.failJoining.core = s.core.joinFailed.withMembership fun _ => s.core.joinFailed.listening := by
  simp only [failJoining, core_enterListening, core_withMembership, core_withdrawQueues, core_clearAttempts,
    core_emptyTransfer, core_resetDirectory]
  rfl

/-- The join record at the entry into JOINING (R121). -/
def firstAttempt : JoinRecord := { attempt := 1, responder := none, runSet := [], gap := none, renewal := none }

/-- The regions' records without an entry, a current replica or a transfer (R98). -/
def emptied (s : State) : State :=
  ((s.withDirectory Entry.unknown).withReplicas s.unsynced).withTransfer fun _ => Transfer.empty

theorem core_enterJoining (s : State) :
    s.enterJoining.core = s.core.emptied.withMembership fun m =>
      { m with
        station := .joining, table := s.core.ownTable .joining, presenceTimer := none, listenTimer := none
        leaveCause := none, join := some firstAttempt } := by
  simp only [enterJoining, core_placeAttempt, core_setStation, core_withMembership, core_emptyTransfer,
    core_unsyncReplicas, core_resetDirectory, core_withLiu, core_setOwnEntry, core_noticeLeftMember_ite]
  rfl

/-- The regions' records at the alone start (R102). -/
def fresh (s : State) : State :=
  ((s.withDirectory Entry.fresh).withReplicas freshVector).withTransfer fun x => { x with reception := none, repairList := [] }

theorem core_aloneStart (s : State) :
    s.aloneStart.core = s.core.fresh.withMembership fun m =>
      { m with
        station := .member, table := s.core.ownTable .member, presenceTimer := some (s.now + Config.presenceInterval)
        listenTimer := none } := by
  have before : ((s.resetDirectory Entry.fresh).freshReplicas).core =
      (s.core.withDirectory Entry.fresh).withReplicas freshVector := by
    simp only [core_freshReplicas, core_resetDirectory]
  have now : ((s.resetDirectory Entry.fresh).freshReplicas).now = s.now := by
    rw [← core_now, before]
    rfl
  simp only [aloneStart, core_setStation, core_withMembership, core_setOwnEntry, core_withTransfer, before,
    setOwnEntry_now, withTransfer_now, now]
  rfl

theorem core_joined (s : State) :
    s.joined.core = s.staleUnsynced.core.withMembership fun m =>
      { m with
        station := .member, table := s.staleUnsynced.core.ownTable .member
        presenceTimer := some (s.staleUnsynced.now + Config.presenceInterval), join := none } := by
  simp only [joined, core_setStation, core_withMembership, core_setOwnEntry, setOwnEntry_now]
  rfl

theorem core_enterLeaving (s : State) (cause : LeaveCause) :
    (s.enterLeaving cause).core = s.core.stopRepair.withMembership fun m =>
      { m with station := .leaving, leaveCause := some cause } := by
  have releases (rs : List Region) (u : State) : (rs.foldl (fun u r => u.placeRelease r false) u).core = u.core :=
    (foldl_lineOnly _ (fun u r => u.placeRelease_lineOnly r false) rs u).core
  have stop (u : State) : u.stopRepair.core = u.core.stopRepair := rfl
  simp only [enterLeaving, core_setStation, releases, core_withMembership, stop, core_withdrawQueue,
    core_noticeLeftMember]
  rfl

/-- The records after the entry into ISOLATED or DETACHED, but for the station state and its timers (R98, R117, R120). -/
def offLine (s : State) : State :=
  { s.emptied with budget := [] }.withMembership fun m =>
    { m with table := Vector.replicate 16 MemberEntry.absent, presenceTimer := none, join := none }

theorem core_leaveLine (s : State) : s.leaveLine.core = s.core.offLine := by
  have budget (u : State) : ({ u with budget := [] } : State).core = { u.core with budget := [] } := rfl
  have table (u : State) : u.clearTable.core = u.core.clearTable := rfl
  simp only [leaveLine, core_withLiu, core_withMembership, budget, core_withdrawQueues, core_emptyTransfer,
    core_unsyncReplicas, core_resetDirectory, table, core_noticeLeftMember_ite]
  rfl

theorem core_enterIsolated (s : State) :
    s.enterIsolated.core = s.core.offLine.withMembership fun m =>
      { m with
        station := .isolated, isolationTimer := some (s.now + Config.isolationTime), faultCause := .transmitFailures } := by
  have now : s.leaveLine.now = s.now := by
    rw [← core_now, core_leaveLine]
    rfl
  simp only [enterIsolated, core_setStation, core_withMembership, core_leaveLine, now]
  rfl

theorem core_enterDetached (s : State) :
    s.enterDetached.core = s.core.offLine.withMembership fun m =>
      { m with
        station := .detached, listenTimer := none, isolationTimer := none, memberHeard := false, leaveCause := none } := by
  simp only [enterDetached, core_setStation, core_withMembership, core_leaveLine]
  rfl

end State

end Sys2Proof.Machine
end

section
/-! SUPPORT. The entries into the station states keep the invariants: each is whole where its whole sequence is. -/

-- One declaration at a time: side by side, the case splits of these proofs want more threads than the memory limit allows.
set_option Elab.async false

namespace Sys2Proof.Machine

theorem lineOnly_core (t : State) : LineOnly t.core t := ⟨rfl, rfl, rfl, rfl, rfl, rfl, rfl, rfl, rfl, rfl, rfl⟩

theorem LineOnly.of_core_eq {s t : State} (h : t.core = s) : LineOnly s t := h ▸ lineOnly_core t

namespace State

theorem entry_of_replicate {s : State} {e : Entry} (h : s.directory = Vector.replicate 64 e) (r : Region) : s.entry r = e := by
  simp [entry, h]

theorem directorySound_of_unknown {s : State} (h : s.directory = Vector.replicate 64 Entry.unknown) : s.directorySound := by
  simp [directorySound, ownerSideSound, entry_of_replicate h, Entry.sound, Entry.unknown]

theorem directorySound_of_fresh {s : State} (h : s.directory = Vector.replicate 64 Entry.fresh)
    (transmits : s.station.transmits = true) : s.directorySound := by
  refine directorySound_iff.2 ⟨fun r => ?_, fun quiet => by simp [transmits] at quiet⟩
  rw [entry_of_replicate h]
  exact ⟨rfl, rfl⟩

/-- An empty repair list and a closed record. -/
theorem repairListSound_of_empty {s : State} (list : s.transfer.repairList = []) (closed : s.transfer.reception = none) :
    s.repairListSound := by
  simp [repairListSound, list, closed]

theorem replica_unsynced (s : State) (r : Region) :
    (s.withReplicas s.unsynced).replica r = { s.replica r with condition := .unsynced, attempts := 0 } := by
  simp [withReplicas, unsynced, replica]

theorem replica_clearAttempts (s : State) (r : Region) : s.clearAttempts.replica r = { s.replica r with attempts := 0 } := by
  simp [clearAttempts, replica]

theorem replica_fresh (s : State) (r : Region) :
    (s.withReplicas freshVector).replica r = { Replica.reset with condition := .current } := by
  simp [withReplicas, freshVector, replica]

end State

/-! ## The replicas and the transfer unit alone -/

/-- `t` differs from `s` at most in the replicas, the transfer unit, and what `LineOnly` leaves open. -/
structure TransferOnly (s t : State) : Prop where
  now : t.now = s.now
  powered : t.powered = s.powered
  directory : t.directory = s.directory
  budget : t.budget = s.budget
  membership : t.membership = s.membership
  freeCount : t.freeCount = s.freeCount
  pending : t.pending = s.pending
  config : t.host.config = s.host.config
  lastReset : t.lastReset = s.lastReset

theorem LineOnly.transferOnly {s t : State} (h : LineOnly s t) : TransferOnly s t :=
  ⟨h.now, h.powered, h.directory, h.budget, h.membership, h.freeCount, h.pending, h.config, h.lastReset⟩

namespace TransferOnly

variable {s t u : State}

theorem refl (s : State) : TransferOnly s s := ⟨rfl, rfl, rfl, rfl, rfl, rfl, rfl, rfl, rfl⟩

theorem trans (h : TransferOnly s t) (g : TransferOnly t u) : TransferOnly s u :=
  ⟨g.now.trans h.now, g.powered.trans h.powered, g.directory.trans h.directory, g.budget.trans h.budget,
    g.membership.trans h.membership, g.freeCount.trans h.freeCount, g.pending.trans h.pending, g.config.trans h.config,
    g.lastReset.trans h.lastReset⟩

theorem ite {p : Prop} {_ : Decidable p} (h : TransferOnly s t) (g : TransferOnly s u) :
    TransferOnly s (if p then t else u) := by
  split
  · exact h
  · exact g

theorem foldl {α : Type} {f : State → α → State} (step : ∀ u x, TransferOnly u (f u x)) (xs : List α) (s : State) :
    TransferOnly s (xs.foldl f s) := by
  induction xs generalizing s with
  | nil => exact refl s
  | cons x rest ih => exact (step s x).trans (ih _)

theorem entry (h : TransferOnly s t) (r : Region) : t.entry r = s.entry r := State.entry_congr h.directory r

theorem station (h : TransferOnly s t) : t.station = s.station := by simp [State.station, h.membership]

theorem isSelf (h : TransferOnly s t) (x : Station) : t.isSelf x = s.isSelf x := by simp [State.isSelf, State.self, h.config]

end TransferOnly

theorem State.addChange_lineOnly (s : State) (r : Region) : LineOnly s (s.addChange r) :=
  ⟨rfl, rfl, rfl, rfl, rfl, rfl, rfl, rfl, rfl, rfl, rfl⟩

theorem State.changeCondition_transferOnly (s : State) (r : Region) (c : Condition) :
    TransferOnly s (s.changeCondition r c) := by
  by_cases same : (s.replica r).condition = c
  · rw [State.changeCondition_same same]
    exact .refl s
  · have changed : TransferOnly s ((s.recondition r c).addChange r) := ⟨rfl, rfl, rfl, rfl, rfl, rfl, rfl, rfl, rfl⟩
    rw [State.changeCondition_eq same]
    exact (changed.trans (State.noticeRegionNotCurrent_lineOnly _ _).transferOnly).ite changed

theorem State.staleUnsynced_transferOnly (s : State) : TransferOnly s s.staleUnsynced :=
  .foldl (fun u r => u.changeCondition_transferOnly r .stale) _ s

/-! ## The membership controller after an entry -/

/-- The membership controller agrees with itself and with the configuration record (R96, R99, R100, R108, R111, R117, R121). -/
structure Membership.Sound (m : Membership) (configured : Bool) : Prop where
  config : configured = true ↔ m.station ≠ .unconfigured
  listen : m.listenTimer.isSome = true → m.station = .listening
  isolation : m.isolationTimer.isSome = true → m.station = .isolated
  presence : m.presenceTimer.isSome = true → m.station.participates = true
  join : m.join.isSome = true ↔ m.station = .joining
  leave : m.station = .leaving → m.leaveCause.isSome = true

theorem State.membershipSound_iff {s : State} : s.membershipSound ↔ s.membership.Sound s.host.config.isSome :=
  ⟨fun ⟨a, b, c, d, e, f⟩ => ⟨a, b, c, d, e, f⟩, fun ⟨a, b, c, d, e, f⟩ => ⟨a, b, c, d, e, f⟩⟩

namespace Evolves

variable {w k : Prop} {a s t u : State} {e : Entry} {q : QueueId} {exempt : Item → Bool} {p : Presence} {st : StationState}
  {cause : LeaveCause} {b : Bool}

/-! ## The parts of an entry -/

theorem resetDirectory (h : Evolves w False a s) : Evolves w False a (s.resetDirectory e) := by
  unfold State.resetDirectory
  dsimp only
  refine addChanges ((h.cancel (q := .originated)).trans { (refl _ : Evolves w False _ _) with
    queues := fun b => ⟨b.1, b.2, b.3, b.4, b.5⟩, directory := fun no => no.elim })

theorem unsyncReplicas (h : Evolves w False a s) : Evolves w False a s.unsyncReplicas := by
  have step : Evolves w False s (s.withReplicas s.unsynced) := { (refl s : Evolves w False s s) with
    queues := fun b => ⟨b.1, b.2, b.3, b.4, b.5⟩
    image := fun sound => ⟨fun r => by rw [State.replica_unsynced]; exact sound.1 r, sound.2⟩
    written := fun _ r => by rw [State.replica_unsynced]; exact ⟨rfl, rfl⟩
    repair := fun no => no.elim }
  rw [State.unsyncReplicas_eq]
  dsimp only
  split
  · exact (h.trans step).addChanges.noticeRegionNotCurrent.ite (h.trans step).addChanges
  · exact (h.trans step).addChanges

theorem freshReplicas (h : Evolves True False a s) : Evolves True False a s.freshReplicas := by
  have step : Evolves True False s (s.withReplicas State.freshVector) := { (refl s : Evolves True False s s) with
    queues := fun b => ⟨b.1, b.2, b.3, b.4, b.5⟩
    image := fun sound => ⟨fun r => by rw [State.replica_fresh]; rfl, sound.2⟩
    written := fun no => absurd trivial no
    repair := fun no => no.elim }
  exact (h.trans step).addChanges

theorem clearAttempts (h : Evolves w k a s) : Evolves w k a s.clearAttempts := by
  have step : Evolves w k s s.clearAttempts := { (refl s : Evolves w k s s) with
    queues := fun b => ⟨b.1, b.2, b.3, b.4, b.5⟩
    image := fun sound => ⟨fun r => by rw [State.replica_clearAttempts]; exact sound.1 r, sound.2⟩
    written := fun _ r => by rw [State.replica_clearAttempts]; exact ⟨rfl, rfl⟩
    repair := fun _ sound => by
      have transfer : s.clearAttempts.transfer = s.transfer := rfl
      simpa only [State.repairListSound, State.replica_clearAttempts, transfer] using sound }
  exact h.trans step

theorem withdrawQueue (h : Evolves w k a s) : Evolves w k a (s.withdrawQueue q exempt) :=
  h.withLiu ((s.liu.cancel_shorter _ _).trans (Liu.markFlight_shorter _ _ _))

theorem withdrawQueues (h : Evolves w k a s) : Evolves w k a s.withdrawQueues := h.withdrawQueue.withdrawQueue

theorem setStation (h : Evolves w False a s) : Evolves w False a (s.setStation st) :=
  setStateChanged (h.withMembership (sound := fun no => no.elim) (station := fun no => no.elim))

theorem clearTable (h : Evolves w k a s) : Evolves w k a s.clearTable :=
  h.withMembership (f := fun m => { m with table := Vector.replicate 16 MemberEntry.absent })

/-- A change of the membership controller on the way through an entry. -/
theorem onTheWay {f : Membership → Membership} (h : Evolves w False a s) : Evolves w False a (s.withMembership f) :=
  h.withMembership (sound := fun no => no.elim) (station := fun no => no.elim)

/-- A whole entry, from what it leaves beside the LIU, the command unit and the host link. -/
theorem sealedBy {t u : State} (h : Evolves w False s t) (left : t.core = u) (repair : s.repairListSound → u.repairListSound)
    (membership : s.membershipSound → u.membershipSound)
    (directory : s.membershipSound → s.directorySound → u.directorySound) : Evolves w k s t :=
  have line := LineOnly.of_core_eq left
  h.sealed (line.repairListSound ∘ repair) (line.membershipSound ∘ membership) fun before sound =>
    line.directorySound (directory before sound)

/-! ## The entries -/

/-- The entry into LISTENING, where nothing but the listening begins: the record is written, no join, no presence timer. -/
theorem listened (h : Evolves w False s t) (left : t.core = u.core.withMembership fun _ => u.core.listening)
    (repair : s.repairListSound → u.repairListSound)
    (idle : s.membershipSound → u.host.config.isSome = true ∧ u.membership.presenceTimer = none ∧ u.membership.join = none)
    (directory : s.membershipSound → s.directorySound → ∀ r, u.entry r = Entry.unknown) : Evolves w k s t := by
  refine h.sealedBy left repair (fun sound => State.membershipSound_iff.2 ?_) fun before sound => ?_
  · obtain ⟨configured, presence, join⟩ := idle sound
    constructor <;> simp [State.core, State.listening, configured, presence, join]
  · have unknown (r : Region) : (u.core.withMembership fun _ => u.core.listening).entry r = Entry.unknown :=
      directory before sound r
    refine State.directorySound_iff.2 ⟨fun r => ?_, fun _ => unknown⟩
    rw [unknown]
    exact ⟨rfl, rfl⟩

theorem enterListening (h : Evolves w k a s) (quiet : s.membershipSound → s.station = .detached ∨ s.station = .isolated) :
    Evolves w k a s.enterListening := by
  have way : Evolves w False s s.enterListening :=
    setStation (withLiu (onTheWay (setOwnEntry (refl s))))
  refine h.trans (way.listened s.core_enterListening id (fun sound => ?_) fun before sound => ?_)
  · obtain ⟨config, listen, isolation, presence, join, leave⟩ := State.membershipSound_iff.1 sound
    have station : s.membership.station = .detached ∨ s.membership.station = .isolated := quiet sound
    refine ⟨config.2 ?_, Option.not_isSome_iff_eq_none.1 fun h => ?_, Option.not_isSome_iff_eq_none.1 fun h => ?_⟩
    · rcases station with h | h <;> simp [h]
    · rcases station with h' | h' <;> simp [h', StationState.participates] at presence <;> simp [presence] at h
    · rcases station with h' | h' <;> simp [h'] at join <;> simp [join] at h
  · have station := quiet before
    exact sound.2 (by tauto)

theorem failJoining (h : Evolves w k a s) (joining : s.membership.join.isSome = true) : Evolves w k a s.failJoining := by
  have way : Evolves w False s s.failJoining :=
    setStation (withLiu (onTheWay (setOwnEntry (onTheWay (withdrawQueues (clearAttempts (emptyTransfer (resetDirectory
      (refl s)))))))))
  refine h.trans (way.listened (u := s.core.joinFailed) s.core_failJoining
    (fun _ => State.repairListSound_of_empty rfl rfl) (fun sound => ?_) fun _ _ => State.entry_of_replicate rfl)
  obtain ⟨config, listen, isolation, presence, join, leave⟩ := State.membershipSound_iff.1 sound
  have station := join.1 joining
  refine ⟨config.2 (by simp [station]), ?_, rfl⟩
  show s.membership.presenceTimer = none
  simpa [station, StationState.participates] using presence

theorem placeAttempt (h : Evolves w k a s) : Evolves w k a s.placeAttempt := by
  refine place (cancel (h.withMembership (sound := fun _ sound => ?_)))
  obtain ⟨config, listen, isolation, presence, join, leave⟩ := State.membershipSound_iff.1 sound
  exact State.membershipSound_iff.2 ⟨config, listen, isolation, presence, by simpa using join, leave⟩

theorem enterJoining (h : Evolves w k a s) (from_ : s.membershipSound → s.station = .listening ∨ s.station = .leaving) :
    Evolves w k a s.enterJoining := by
  have left : Evolves w False s (if s.station = .leaving then s.noticeLeftMember else s) := (noticeLeftMember (refl s)).ite (refl s)
  have way : Evolves w False s s.enterJoining :=
    placeAttempt (setStation (emptyTransfer (unsyncReplicas (resetDirectory (withLiu (onTheWay (setOwnEntry left))
      ((Liu.cancel_shorter _ _ _).trans (Liu.markFlight_shorter _ _ _)))))))
  refine h.trans (way.sealedBy s.core_enterJoining (fun _ => State.repairListSound_of_empty rfl rfl) (fun sound => ?_)
    fun _ _ => State.directorySound_of_unknown rfl)
  obtain ⟨config, listen, isolation, presence, join, leave⟩ := State.membershipSound_iff.1 sound
  have station : s.membership.station = .listening ∨ s.membership.station = .leaving := from_ sound
  have configured : s.host.config.isSome = true := config.2 (by rcases station with h | h <;> simp [h])
  have still : s.membership.isolationTimer = none := by
    rcases station with h | h <;> simpa [h] using isolation
  refine State.membershipSound_iff.2 ?_
  constructor <;> simp [State.core, State.emptied, State.withDirectory, State.withReplicas, configured, still]

theorem aloneStart (h : Evolves True k a s) (listening : s.membershipSound → s.station = .listening) : Evolves True k a s.aloneStart := by
  have way : Evolves True False s s.aloneStart :=
    setStation (onTheWay (setOwnEntry (withTransfer (freshReplicas (resetDirectory (refl s)))
      (reception := fun _ _ eq => nomatch eq) (repair := fun no => no.elim))))
  refine h.trans (way.sealedBy s.core_aloneStart (fun _ => State.repairListSound_of_empty rfl rfl) (fun sound => ?_)
    fun _ _ => State.directorySound_of_fresh rfl rfl)
  obtain ⟨config, listen, isolation, presence, join, leave⟩ := State.membershipSound_iff.1 sound
  have station : s.membership.station = .listening := listening sound
  have still : s.membership.isolationTimer = none := by simpa [station] using isolation
  have alone : s.membership.join = none := by simpa [station] using join
  refine State.membershipSound_iff.2 ?_
  constructor <;> simp [State.core, State.fresh, State.withDirectory, State.withReplicas, config.2 (by simp [station]),
    still, alone, StationState.participates]

theorem staleUnsynced (h : Evolves w k a s) : Evolves w k a s.staleUnsynced := h.foldl becomeStale

theorem joined (h : Evolves w k a s) (joining : s.station = .joining) : Evolves w k a s.joined := by
  have kept := s.staleUnsynced_transferOnly
  have own := h.staleUnsynced.setOwnEntry (p := .member)
  have station : (s.staleUnsynced.setOwnEntry .member).membership.station = .joining := by
    rw [State.setOwnEntry_eq]
    exact kept.station.trans joining
  refine setStateChanged (own.withMembership (f := fun m =>
      { m with presenceTimer := some ((s.staleUnsynced.setOwnEntry .member).now + Config.presenceInterval), join := none
               station := .member })
    (sound := fun _ sound => ?_) (station := fun _ _ quiet => nomatch quiet))
  obtain ⟨config, listen, isolation, presence, join, leave⟩ := State.membershipSound_iff.1 sound
  refine State.membershipSound_iff.2 ?_
  constructor <;> simp_all [StationState.participates]

theorem enterLeaving (h : Evolves w k a s) (member : s.station = .member) : Evolves w k a (s.enterLeaving cause) := by
  have notice := (h.noticeLeftMember.withdrawQueue (q := .originated) (exempt := Item.isRelease)).withTransfer
    (f := fun x => { x with repairStage := .idle, refreshTimer := none })
  have caused := notice.withMembership (f := fun m => { m with leaveCause := some cause }) (sound := fun _ sound => by
    obtain ⟨config, listen, isolation, presence, join, leave⟩ := State.membershipSound_iff.1 sound
    exact State.membershipSound_iff.2 ⟨config, listen, isolation, presence, join, fun _ => rfl⟩)
  have entered (u : State) (released : Evolves w k a u)
      (before : u.membership = { s.membership with leaveCause := some cause }) : Evolves w k a (u.setStation .leaving) := by
    refine setStateChanged (released.withMembership (f := fun m => { m with station := .leaving })
      (sound := fun _ sound => ?_) (station := fun _ _ quiet => nomatch quiet))
    obtain ⟨config, listen, isolation, presence, join, leave⟩ := State.membershipSound_iff.1 sound
    have station : s.membership.station = .member := member
    refine State.membershipSound_iff.2 ?_
    rw [before] at config listen isolation presence join leave
    constructor <;> simp_all [StationState.participates]
  refine entered _ (caused.foldl (f := fun s r => s.placeRelease r false) place) ?_
  exact (foldl_lineOnly (fun (s : State) r => s.placeRelease r false) (fun s r => s.placeRelease_lineOnly r false) _
    _).membership.trans (congrArg (fun m : Membership => { m with leaveCause := some cause })
      s.noticeLeftMember_lineOnly.membership)

theorem leaveLine (h : Evolves w False a s) : Evolves w False a s.leaveLine := by
  have left : Evolves w False s (if s.station.participates then s.noticeLeftMember else s) := (noticeLeftMember (refl s)).ite (refl s)
  have emptied := left.clearTable.resetDirectory (e := Entry.unknown) |>.unsyncReplicas.emptyTransfer.withdrawQueues
  have budgetless := emptied.withBudget (es := []) fun _ => Nat.zero_le _
  exact h.trans (withLiu (f := fun l => { l with failures := 0 })
    (onTheWay (f := fun m => { m with presenceTimer := none, join := none }) budgetless))

/-- The entries into ISOLATED and DETACHED, from the station's records left off the line. -/
theorem offLine_sound {m : Membership → Membership} (sound : s.membershipSound)
    (station : (m s.core.offLine.membership).station = .isolated ∨ (m s.core.offLine.membership).station = .detached)
    (configured : s.station ≠ .unconfigured)
    (timers : (m s.core.offLine.membership).listenTimer = none ∧ (m s.core.offLine.membership).presenceTimer = none ∧
      (m s.core.offLine.membership).join = none)
    (isolation : (m s.core.offLine.membership).isolationTimer.isSome = true →
      (m s.core.offLine.membership).station = .isolated) :
    (s.core.offLine.withMembership m).membershipSound := by
  obtain ⟨config, -, -, -, -, -⟩ := State.membershipSound_iff.1 sound
  obtain ⟨listen, presence, join⟩ := timers
  have record : s.core.offLine.host.config.isSome = true := config.2 configured
  refine State.membershipSound_iff.2 ?_
  rcases station with h | h
  · constructor <;> simp [record, h, listen, presence, join]
  · have still : (m s.core.offLine.membership).isolationTimer = none := by simpa [h] using isolation
    constructor <;> simp [record, h, listen, presence, join, still]

theorem enterIsolated (h : Evolves w k a s) (transmits : s.station.transmits = true) : Evolves w k a s.enterIsolated := by
  have way : Evolves w False s s.enterIsolated := setStation (onTheWay (leaveLine (refl s)))
  refine h.trans (way.sealedBy s.core_enterIsolated (fun _ => State.repairListSound_of_empty rfl rfl) (fun sound => ?_)
    fun _ _ => State.directorySound_of_unknown rfl)
  obtain ⟨config, listen, -, -, -, -⟩ := State.membershipSound_iff.1 sound
  have idle : s.membership.listenTimer = none := by
    refine Option.not_isSome_iff_eq_none.1 fun some => ?_
    have station : s.station = .listening := listen some
    simp [station, StationState.transmits] at transmits
  refine offLine_sound sound (.inl rfl) (fun eq => ?_) ⟨idle, rfl, rfl⟩ fun _ => rfl
  simp [eq, StationState.transmits] at transmits

theorem enterDetached (h : Evolves w k a s) (configured : s.station ≠ .unconfigured) : Evolves w k a s.enterDetached := by
  have way : Evolves w False s s.enterDetached := setStation (onTheWay (leaveLine (refl s)))
  refine h.trans (way.sealedBy s.core_enterDetached (fun _ => State.repairListSound_of_empty rfl rfl) (fun sound => ?_)
    fun _ _ => State.directorySound_of_unknown rfl)
  exact offLine_sound sound (.inr rfl) configured ⟨rfl, rfl, rfl⟩ fun no => nomatch no

theorem duplicateNumber (h : Evolves w k a s) : Evolves w k a s.duplicateNumber := by
  refine branch (fun checks => enterDetached (h.withMembership (f := fun m => { m with faultCause := .duplicateNumber })
    (sound := fun _ sound => ?_)) fun eq => ?_) fun _ => h
  · exact State.membershipSound_iff.2 (by
      obtain ⟨config, listen, isolation, presence, join, leave⟩ := State.membershipSound_iff.1 sound
      exact ⟨config, listen, isolation, presence, join, leave⟩)
  · have station : s.station = .unconfigured := eq
    simp [station, StationState.checksNumber] at checks

theorem joinFails (h : Evolves w k a s) : Evolves w k a (s.joinFails b) := by
  unfold State.joinFails
  split
  · exact h
  next j join =>
    refine ite (placeAttempt (h.withMembership (sound := fun _ sound => ?_))) (h.failJoining (by simp [join]))
    obtain ⟨config, listen, isolation, presence, joining, leave⟩ := State.membershipSound_iff.1 sound
    exact State.membershipSound_iff.2 ⟨config, listen, isolation, presence, by simpa [join] using joining, leave⟩

end Evolves

end Sys2Proof.Machine
end

section
/-! SUPPORT. The departure of a station, what concludes every event, the line's rows and the arrivals: what each keeps. -/

-- One declaration at a time: side by side, the case splits of these proofs want more threads than the memory limit allows.
set_option Elab.async false

namespace Sys2Proof.Machine

theorem State.settle_stationKept (s : State) (r : Region) (why : SettleReason) (x : Station) (tell : Bool) :
    StationKept s (s.settle r why x tell) := by
  have changed (e : Entry) : StationKept s (s.changeEntry r e tell) := s.changeEntry_stationKept r e tell
  unfold State.settle
  dsimp only
  split
  · exact (changed _).trans (State.cancel_lineOnly _ _ _).regionsKept.toStationKept
  · exact changed _

theorem State.versionGap_transferOnly (s : State) (r : Region) : TransferOnly s (s.versionGap r) :=
  (s.changeCondition_transferOnly r .stale).trans ⟨rfl, rfl, rfl, rfl, rfl, rfl, rfl, rfl, rfl⟩

theorem State.checkVersion_transferOnly (s : State) (r : Region) (v : Version) : TransferOnly s (s.checkVersion r v) :=
  (s.versionGap_transferOnly r).ite (.refl s)

theorem State.installEntry_station (s : State) (r : Region) (e : DirField) : (s.installEntry r e).station = s.station :=
  (State.checkVersion_transferOnly (s.changeEntry r
      { state := (s.installedState e).1, lastOwner := (s.installedState e).2, overheard := none } true) r e.version).station.trans
    (s.changeEntry_stationKept r _ true).station

namespace Evolves

/-- A fold along which something holds that each step needs. -/
theorem foldlIn {α : Type} {w k : Prop} {a s : State} {f : State → α → State} {xs : List α} (inv : State → Prop) (h : Evolves w k a s) (start : inv s)
    (step : ∀ u, ∀ x ∈ xs, Evolves w k a u → inv u → Evolves w k a (f u x) ∧ inv (f u x)) :
    Evolves w k a (xs.foldl f s) := by
  induction xs generalizing s with
  | nil => exact h
  | cons x rest ih =>
    obtain ⟨stepped, still⟩ := step s x (.head _) h start
    exact ih stepped still fun u y mem => step u y (.tail _ mem)

variable {w k : Prop} {a s t u : State} {q : QueueId} {i : Item} {r : Region} {x j : Station} {f : PartField} {b : Bool}

/-! ## Departure, and the conclusion of an event (R35, R36, R54, R112, R170) -/

theorem departRegion {why : SettleReason} (h : Evolves w k a s) : Evolves w k a (s.departRegion x why r) := by
  unfold State.departRegion
  refine removeOverheard ?_
  split
  next held => exact h.ifSo fun h => h.settle (.inl (Entry.ne_unknown_of_state (by simp [held])))
  next claimed =>
    exact h.ifSo fun h => h.changeEntry (.of_state (by simp [claimed]) (fun _ => rfl) fun _ => rfl)
  next => exact h

theorem stationGone {why : SettleReason} (h : Evolves w k a s) : Evolves w k a (s.stationGone x why) := by
  have departed : Evolves w k a (allRegions.foldl (State.departRegion x why) s) := h.foldl departRegion
  unfold State.stationGone
  exact ifSo (departed.cancel.dropJobsFor.ifSo abandonReception) joinFails

theorem endReleases (h : Evolves w k a s) : Evolves w k a s.endReleases := by
  unfold State.endReleases
  refine branch (fun asked => ?_) fun _ => h
  split
  · exact h.enterJoining fun _ => .inr (by simp_all)
  · exact h.place
  · exact h.place

/-- A new fault cause alone. -/
theorem setFaultCause {cause : FaultCause} (h : Evolves w k a s) :
    Evolves w k a (s.withMembership fun m => { m with faultCause := cause }) := by
  refine h.withMembership (sound := fun _ sound => State.membershipSound_iff.2 ?_)
  obtain ⟨config, listen, isolation, presence, join, leave⟩ := State.membershipSound_iff.1 sound
  exact ⟨config, listen, isolation, presence, join, leave⟩

theorem requestResync {n : Nat} (h : Evolves w k a s) : Evolves w k a (s.requestResync t n) :=
  branch (fun asked => h.setFaultCause.enterLeaving (by
    have station : s.station = .member := by simp_all
    exact station)) fun _ => h

theorem retryOpen (h : Evolves w k a s) : Evolves w k a (s.retryOpen t) := by
  unfold State.retryOpen
  split
  next running =>
    have free := State.not_posting_of_running running
    split
    · exact h.ifSo fun h => (h.attemptClaim free).ite (h.endCommand free)
    · exact h
  next => exact h

theorem concludeFrom {n : Nat} (h : Evolves w k a s) : Evolves w k a (s.concludeFrom t n) :=
  h.requestResync.retryOpen.endReleases

theorem conclude (h : Evolves w k a s) : Evolves w k a (s.conclude t) := h.concludeFrom

/-! ## The line's rows (R143 to R155) -/

theorem dropHead (h : Evolves w k a s) : Evolves w k a (s.dropHead q) :=
  h.withLiu (Liu.shorter_setQueue (by simp))

theorem keepOrWithdraw (h : Evolves w k a s) : Evolves w k a (s.keepOrWithdraw q) := by
  unfold State.keepOrWithdraw
  split
  · exact h.dropHead.ite (h.dropHead.raiseObjectionsWithdrawn.ite h)
  · exact h

theorem reportEnd {item : Option Item} (h : Evolves w k a s) : Evolves w k a (s.reportEnd item) := by
  unfold State.reportEnd
  split
  next running => exact h.ifSo fun h => h.commandEndWithoutArrival (State.not_posting_of_running running)
  next => exact h

theorem isolateAtLimit (h : Evolves w k a s) : Evolves w k a s.isolateAtLimit :=
  branch (fun limit => h.enterIsolated (by simp_all)) fun _ => h

theorem transmitFailure {after : Transmitter} (h : Evolves w k a s) : Evolves w k a (s.transmitFailure q after) := by
  have kept := (h.raiseTxFailures.withLiu
    (f := fun l => { l with transmitter := after, failures := l.failures + 1 })).keepOrWithdraw (q := q)
  exact ite (kept.withFreeCount.reportEnd.isolateAtLimit.ite kept.withFreeCount.isolateAtLimit.reportEnd) kept.reportEnd

theorem faultyFrameEnds (h : Evolves w k a s) : Evolves w k a s.faultyFrameEnds := by
  have heard : Evolves w k a s.faultHeard := h.withLiu
  unfold State.faultyFrameEnds
  split
  · exact heard.ite heard.raiseFrameErrors
  · exact heard.transmitFailure
  · exact heard

theorem collide (h : Evolves w k a s) : Evolves w k a s.collide := by
  unfold State.collide
  split
  · exact h.transmitFailure
  all_goals exact h

theorem endJam (h : Evolves w k a s) : Evolves w k a s.endJam := by
  unfold State.endJam
  split
  · exact h.ifSo fun h => h.withLiu
  all_goals exact h

theorem skipPartZero {kind : TransferKind} (h : Evolves w k a s) : Evolves w k a (s.skipPartZero kind x r) := by
  refine ite ?_ h
  cases kind with
  | refresh => exact h.endJobs
  | snap => exact h.syncGoOn

theorem fillBuffer (h : Evolves w k a s) : Evolves w k a (s.fillBuffer r) := by
  refine h.withTransfer (f := fun y => { y with
    buffer := some { region := r, version := (s.replica r).version, content := (s.replica r).content } })
    (buffer := fun sound b eq => ?_)
  obtain rfl := Option.some.inj eq
  exact sound.1 r

theorem tryBegin {y : Queued} (h : Evolves w k a s) : Evolves w k a (s.tryBegin x q y).1 := by
  obtain ⟨item, _, _⟩ := y
  unfold State.tryBegin
  cases item with
  | claim =>
    dsimp only
    split
    · exact h
    · exact h.dropHead.noticeBudgetFull
  | object _ _ budget =>
    cases budget with
    | true => exact h
    | false =>
      dsimp only
      split
      · exact h
      · exact h.dropHead.raiseObjectionsWithdrawn
  | partZero =>
    dsimp only
    split
    · exact h.fillBuffer
    · split
      · exact h.dropHead
      · exact h.dropHead.skipPartZero
  | update =>
    dsimp only
    split
    · exact h
    · exact h.dropHead.noticeUpdateRefused
  | _ => exact h

theorem chooseFrame {n : Nat} (h : Evolves w k a s) : Evolves w k a (State.chooseFrame x n s) := by
  induction n generalizing s with
  | zero => exact h
  | succ n ih =>
    unfold State.chooseFrame
    split
    · exact h
    next q y _ =>
      have tried := h.tryBegin (x := x) (q := q) (y := y)
      split
      next begun =>
        rw [begun] at tried
        exact tried.withLiu (f := fun l => { l with transmitter := .sending q _ })
      next withdrawn =>
        rw [withdrawn] at tried
        exact ih tried.settleWaiting

theorem access (h : Evolves w k a s) : Evolves w k a s.access := by
  unfold State.access
  dsimp only
  split
  · exact h.settleWaiting.ifSo chooseFrame
  · exact h.settleWaiting

/-! ## Every arrival (R142) -/

theorem lineHeard (h : Evolves w k a s) : Evolves w k a (s.lineHeard x) := h.withLiu

theorem leaveQueue (h : Evolves w k a s) : Evolves w k a s.leaveQueue := by
  refine h.withLiu fun q => ?_
  split
  · exact Liu.shorter_setQueue (by simp) q
  all_goals exact le_rfl

/-- A change of the join record that keeps it where it stands. -/
theorem mapJoin {g : JoinRecord → JoinRecord} (h : Evolves w k a s) :
    Evolves w k a (s.withMembership fun m => { m with join := m.join.map g }) := by
  refine h.withMembership (sound := fun _ sound => State.membershipSound_iff.2 ?_)
  obtain ⟨config, listen, isolation, presence, join, leave⟩ := State.membershipSound_iff.1 sound
  exact ⟨config, listen, isolation, presence, by simpa using join, leave⟩

/-- The presence timer is set in a station that takes part, or stopped (R108). -/
theorem setPresenceTimer {d : Option Time} (h : Evolves w k a s)
    (running : d.isSome = true → s.station.participates = true) :
    Evolves w k a (s.withMembership fun m => { m with presenceTimer := d }) := by
  refine h.withMembership (sound := fun _ sound => State.membershipSound_iff.2 ?_)
  obtain ⟨config, listen, isolation, presence, join, leave⟩ := State.membershipSound_iff.1 sound
  exact ⟨config, listen, isolation, running, join, leave⟩

theorem ownHeard (h : Evolves w k a s) : Evolves w k a (s.ownHeard x) := by
  have entry : Evolves w k a (if (s.member x).presence = .absent then s
      else s.setMember x { s.member x with lastHeard := some s.now }) := h.ite h.setMember
  have station : (if (s.member x).presence = .absent then s
      else s.setMember x { s.member x with lastHeard := some s.now }).station = s.station := by
    split <;> rfl
  unfold State.ownHeard
  dsimp only
  split
  next eq => exact (entry.setPresenceTimer fun _ => by rw [eq]; rfl).cancel
  next eq => exact (entry.setPresenceTimer fun _ => by rw [eq]; rfl).cancel
  next => exact entry.mapJoin.cancel
  all_goals exact entry

theorem setMemberHeard (h : Evolves w k a s) :
    Evolves w k a (s.withMembership fun m => { m with memberHeard := true }) := by
  refine h.withMembership (sound := fun _ sound => State.membershipSound_iff.2 ?_)
  obtain ⟨config, listen, isolation, presence, join, leave⟩ := State.membershipSound_iff.1 sound
  exact ⟨config, listen, isolation, presence, join, leave⟩

theorem otherHeard {g : Frame} (h : Evolves w k a s) : Evolves w k a (s.otherHeard x g) := by
  unfold State.otherHeard
  exact ite ((h.setMember.ifSo setMemberHeard).ifSo dropSync) h

theorem frameArrives {g : Frame} {deliver : Option Queued → State → State}
    (delivers : ∀ {own u}, Evolves w k a u → Evolves w k a (deliver own u)) (h : Evolves w k a s) :
    Evolves w k a (s.frameArrives x g deliver) := by
  unfold State.frameArrives
  dsimp only
  split
  · exact delivers h.lineHeard.leaveQueue.ownHeard
  · exact h.lineHeard.duplicateNumber.ite (delivers h.lineHeard.otherHeard)

/-! ## The kinds' deliveries -/

theorem presenceCheck {g : Frame} (h : Evolves w k a s) : Evolves w k a (s.presenceCheck x g) :=
  branch (fun transmits => h.foldlIn (fun u => u.station.transmits = true) transmits fun u r _ h transmits =>
    ⟨h.settle (.inr transmits), by rwa [(u.settle_stationKept r .expired x true).station]⟩) fun _ => h

theorem restartGap (h : Evolves w k a s) : Evolves w k a (s.restartGap x j) := h.ifSo mapJoin

theorem jobEchoed {y : Queued} {goOn : State → State} (goes : ∀ {u}, Evolves w k a u → Evolves w k a (goOn u))
    (h : Evolves w k a s) : Evolves w k a (s.jobEchoed y goOn) := h.ite (goes h)

theorem syncEchoed {y : Queued} {goOn : State → State} (goes : ∀ {u}, Evolves w k a u → Evolves w k a (goOn u))
    (h : Evolves w k a s) : Evolves w k a (s.syncEchoed y x j goOn) := (h.jobEchoed goes).restartGap

theorem joinReqEchoed (h : Evolves w k a s) : Evolves w k a (s.joinReqEchoed i) := h.ite h.mapJoin

theorem joinRequested (h : Evolves w k a s) : Evolves w k a (s.joinRequested j) := h.joinFails.ite h.syncRequested

/-- An entry that a DIR installs has the form of R141, and the joiner transmits (R131). -/
theorem installEntry {d : DirField} (h : Evolves w k a s) (transmits : s.station.transmits = true) (good : d.goodForm = true) :
    Evolves w k a (s.installEntry r d) := by
  refine checkVersion (h.changeEntry (e := { state := (s.installedState d).1, lastOwner := (s.installedState d).2, overheard := none })
    ?_)
  unfold State.installedState
  cases shown : d.shown with
  | free => exact ⟨.inr transmits, fun _ => rfl, fun _ => rfl⟩
  | claimed c =>
    dsimp only
    split
    · exact .settling (.inr transmits)
    · exact ⟨.inr transmits, fun _ => rfl, fun _ => rfl⟩
  | held y =>
    dsimp only
    split
    · exact .settling (.inr transmits)
    · exact .held (.inr transmits)
  | settling =>
    refine ⟨.inr transmits, fun _ => ?_, fun _ => rfl⟩
    simpa [DirField.goodForm, shown, Entry.sound] using good

theorem installGroup {g : Group} {es : List DirField} (h : Evolves w k a s) (transmits : s.station.transmits = true)
    (good : ∀ d ∈ es, d.goodForm = true) : Evolves w k a (s.installGroup g es) := by
  refine h.foldlIn (fun u => u.station.transmits = true) transmits fun u p mem h transmits =>
    ⟨h.installEntry transmits (good p.2 (List.of_mem_zip mem).2), ?_⟩
  exact (congrArg StationState.transmits (u.installEntry_station (groupRegion g p.1) p.2)).trans transmits

theorem dirReceived {g : Group} {es : List DirField} (h : Evolves w k a s) (transmits : s.station.transmits = true)
    (good : ∀ d ∈ es, d.goodForm = true) : Evolves w k a (s.dirReceived x g es) :=
  (h.mapJoin.installGroup transmits good).ite (h.ifSo fun h => h.mapJoin.installGroup transmits good)

theorem dirArrives {g : Group} {es : List DirField} (h : Evolves w k a s) (good : ∀ d ∈ es, d.goodForm = true) :
    Evolves w k a (s.dirArrives x j g es) :=
  branch (fun asked => h.suppressSync.restartGap.dirReceived (by
    have station : ((s.suppressSync j).restartGap x j).station = .joining := by simp_all
    rw [station]
    rfl) good) fun _ => h.suppressSync.restartGap

theorem abandonReception_station (s : State) : s.abandonReception.station = s.station := by
  unfold State.abandonReception
  split
  · rfl
  · dsimp only
    split <;> rfl

theorem syncEndReceived (h : Evolves w k a s) (joining : s.station = .joining) : Evolves w k a s.syncEndReceived :=
  (h.abandonReception.joined (by rw [abandonReception_station, joining])).ite h.abandonReception.joinFails

theorem syncEndArrives (h : Evolves w k a s) : Evolves w k a (s.syncEndArrives x j) :=
  branch (fun asked => h.suppressSync.restartGap.syncEndReceived (by simp_all)) fun _ => h.suppressSync.restartGap

theorem leaveEchoed (h : Evolves w k a s) : Evolves w k a s.leaveEchoed :=
  branch (fun leaving => h.enterDetached (by simp [leaving])) fun _ => h

theorem leaveArrives (h : Evolves w k a s) : Evolves w k a (s.leaveArrives x) := h.ifSo stationGone

end Evolves

end Sys2Proof.Machine
end

section
/-! SUPPORT. The host's rows, the command unit's rows and the deadlines, and with them every command: what each keeps. -/

-- One declaration at a time: side by side, the case splits of these proofs want more threads than the memory limit allows.
set_option Elab.async false

namespace Sys2Proof.Machine

/-- A condition other than CURRENT changes with no notice to the command unit (R53). -/
theorem State.changeCondition_of_not_current {s : State} {r : Region} {c : Condition} (change : (s.replica r).condition ≠ c)
    (other : (s.replica r).condition ≠ .current) : s.changeCondition r c = (s.recondition r c).addChange r := by
  rw [State.changeCondition_eq change, if_neg other]

/-- A LOST replica's return to STALE (R94). -/
theorem State.returnLost_of_lost {s : State} {r : Region} (lost : (s.replica r).condition = .lost) :
    s.returnLost r = ((s.setReplica r { s.replica r with attempts := 0 }).recondition r .stale).addChange r := by
  rw [State.returnLost, if_pos lost, State.changeCondition_of_not_current (by simp [lost]) (by simp [lost])]

namespace Evolves

variable {w k : Prop} {a s t u : State} {q : QueueId} {i : Item} {r : Region} {x j : Station} {f : PartField} {b : Bool}
  {run : Running} {c : CommandRecord}

/-! ## The host's rows (spec/10) -/

/-- The configuration record is written where it stood open, and the station listens (R99, R100). -/
theorem configured {y : Configuration} {n : Answer} (h : Evolves w k a s) (unconfigured : s.station = .unconfigured) :
    Evolves w k a (((s.beginAnswered n).writeConfiguration y).enterListening) := by
  have written : Evolves w False s ((s.beginAnswered n).writeConfiguration y) :=
    { (refl s : Evolves w False s s) with
      queues := fun b => ⟨b.1, b.2, b.3, b.4, b.5⟩, membership := fun no => no.elim, directory := fun no => no.elim }
  refine h.trans (listened (setStation (withLiu (onTheWay (setOwnEntry written)))) (State.core_enterListening _) id
    (fun sound => ⟨rfl, ?_, ?_⟩) fun before sound => sound.2 (.inl unconfigured))
  all_goals
    obtain ⟨config, listen, isolation, presence, join, leave⟩ := State.membershipSound_iff.1 sound
    have station : s.membership.station = .unconfigured := unconfigured
  · show s.membership.presenceTimer = none
    simpa [station, StationState.participates] using presence
  · show s.membership.join = none
    simpa [station] using join

theorem configure {station lease limit mask : Byte} (h : Evolves w k a s) :
    Evolves w k a (s.configure station lease limit mask) := by
  unfold State.configure
  split
  next some =>
    refine h.configured ?_
    unfold State.configuration at some
    by_contra other
    simp [other] at some
  next => exact h.begin

theorem completeStatus (h : Evolves w k a s) : Evolves w k a s.completeStatus := by
  unfold State.completeStatus
  split
  · exact h.withHost
  · exact h

theorem putCommand {bs : List Byte} (h : Evolves w k a s) : Evolves w k a (s.putCommand bs) := by
  unfold State.putCommand
  split
  · exact h.begin
  · refine branch (fun room => h.beginAnswered.withHost (commands := fun _ => ?_)) fun _ => h.beginAnswered
    rw [List.length_append]
    exact room

theorem takeCompletion (h : Evolves w k a s) : Evolves w k a s.takeCompletion := by
  unfold State.takeCompletion
  split
  · exact h.beginRead
  · exact h.beginRead

theorem completeCounters (h : Evolves w k a s) : Evolves w k a s.completeCounters := by
  unfold State.completeCounters
  split
  · exact h.withHost
  · exact h

theorem abort (h : Evolves w k a s) : Evolves w k a s.abort := h.beginAnswered.abortRunning

theorem cancelQueued (h : Evolves w k a s) : Evolves w k a s.cancelQueued := h.withHost (commands := by simp)

theorem attach (h : Evolves w k a s) : Evolves w k a s.attach :=
  branch (fun detached => h.beginAnswered.enterListening fun _ => .inl detached) fun _ => h.beginAnswered

theorem detach (h : Evolves w k a s) : Evolves w k a s.detach := by
  unfold State.detach
  split
  next member => exact h.beginAnswered.enterLeaving member
  next leaving =>
    refine h.beginAnswered.withMembership (sound := fun _ sound => State.membershipSound_iff.2 ?_)
    obtain ⟨config, listen, isolation, presence, join, leave⟩ := State.membershipSound_iff.1 sound
    exact ⟨config, listen, isolation, presence, join, fun _ => rfl⟩
  iterate 3
    next station =>
      exact h.beginAnswered.enterDetached fun eq => StationState.noConfusion (station.symm.trans eq)
  all_goals exact h.beginAnswered

theorem resync (h : Evolves w k a s) : Evolves w k a s.resync :=
  branch (fun member => h.beginAnswered.enterLeaving member) fun _ => h.beginAnswered

/-! ## The command unit's rows (R165 to R195) -/

/-- A record is taken where the unit is IDLE, and starts from there with no record in the posting slot (R161). -/
theorem take {p : QueuedCommand → Bool} {start : CommandRecord → State → State}
    (starts : ∀ {c u}, Evolves w k a u → (∀ p, u.unit ≠ .posting p) → Evolves w k a (start c u)) (h : Evolves w k a s) :
    Evolves w k a (s.take p start) := by
  unfold State.take
  split
  next idle queue =>
    refine (starts (h.withHost (commands := fun bound => ?_)) fun p => by simp [idle]).ite h
    rw [queue] at bound
    exact (Nat.le_succ _).trans bound
  next => exact h

section

variable (free : ∀ p, s.unit ≠ .posting p)

include free

theorem endAtStart {status : Status} (h : Evolves w k a s) : Evolves w k a (s.endAtStart c status) := h.post free

theorem startInMember {start : Region → State} (h : Evolves w k a s) (starts : ∀ {r}, Evolves w k a (start r)) :
    Evolves w k a (s.startInMember c b start) := by
  unfold State.startInMember
  split
  · exact (h.endAtStart free).ite ((h.endAtStart free).ite starts)
  · exact h.endAtStart free

theorem startOpen (h : Evolves w k a s) : Evolves w k a (s.startOpen c) :=
  h.startInMember free ((h.endAtStart free).ite ((h.endAtStart free).ite (h.attemptClaim free)))

theorem startClose (h : Evolves w k a s) : Evolves w k a (s.startClose c) :=
  h.startInMember free ((h.placeThenProceed free).ite (h.endAtStart free))

theorem startRenew (h : Evolves w k a s) : Evolves w k a (s.startRenew c) :=
  h.startInMember free ((h.placeThenProceed free).ite (h.endAtStart free))

theorem startWrite (h : Evolves w k a s) : Evolves w k a (s.startWrite c) :=
  h.startInMember free ((h.endAtStart free).ite ((h.endAtStart free).ite (h.placeThenProceed free)))

theorem startRepair (h : Evolves w k a s) : Evolves w k a (s.startRepair c) := by
  unfold State.startRepair
  split
  · exact h.endAtStart free
  · split
    next lost =>
      refine h.returnLost.endAtStart ?_
      rw [State.returnLost_of_lost lost]
      exact free
    all_goals exact h.endAtStart free

theorem startCopy (h : Evolves w k a s) : Evolves w k a (s.startCopy c) := by
  unfold State.startCopy
  split
  · exact h.endAtStart free
  · exact h.startInMember free ((h.endAtStart free).ite ((h.endAtStart free).ite ((h.endAtStart free).ite (h.placeChunk free))))

theorem startFill (h : Evolves w k a s) : Evolves w k a (s.startFill c) :=
  h.startInMember free ((h.endAtStart free).ite ((h.endAtStart free).ite (h.placeChunk free)))

theorem examineGroup {next : Int} {unexamined : Nat} (h : Evolves w k a s) :
    Evolves w k a (s.examineGroup run next unexamined b) := by
  unfold State.examineGroup
  dsimp only
  split
  · exact h.endCommand free
  · exact (h.endCommand free).ite (h.proceed free)

theorem startScan (h : Evolves w k a s) : Evolves w k a (s.startScan c) := by
  unfold State.startScan
  split
  · exact h.endAtStart free
  · exact (h.endAtStart free).ite ((h.endAtStart free).ite (h.examineGroup free))

end

theorem nextGroup (h : Evolves w k a s) : Evolves w k a s.nextGroup := by
  unfold State.nextGroup
  split
  next running =>
    split
    · exact h.examineGroup (State.not_posting_of_running running)
    · exact h
  next => exact h

theorem expireOpenWait (h : Evolves w k a s) : Evolves w k a s.expireOpenWait := by
  unfold State.expireOpenWait
  split
  next running =>
    have free := State.not_posting_of_running running
    split
    · exact h.ifSo fun h => h.endCommand free
    · exact h.ifSo fun h => h.proceed free
    · exact h.ifSo fun h => h.proceed free
    · exact h
  next => exact h

/-! ## The deadlines -/

theorem confirmationExpires (h : Evolves w k a s) : Evolves w k a (s.confirmationExpires r) := by
  unfold State.confirmationExpires
  split
  next claimed => exact h.ifSo fun h => h.confirm claimed
  all_goals exact h

theorem leaseExpires (h : Evolves w k a s) : Evolves w k a (s.leaseExpires r) := by
  unfold State.leaseExpires
  split
  next held => exact h.ifSo fun h => h.expireLease held
  all_goals exact h

theorem settleExpires (h : Evolves w k a s) : Evolves w k a (s.settleExpires r) := by
  unfold State.settleExpires
  split
  next settling => exact h.ifSo fun h => h.expireSettle settling
  all_goals exact h

theorem ownerSideExpires (h : Evolves w k a s) : Evolves w k a (s.ownerSideExpires r) := by
  unfold State.ownerSideExpires
  split
  next held => exact h.ifSo fun h => h.lapse held
  all_goals exact h

theorem overheardExpires (h : Evolves w k a s) : Evolves w k a (s.overheardExpires r) := by
  unfold State.overheardExpires
  split
  next present => exact h.ifSo fun h => h.adopt present
  next => exact h

theorem removeAged (h : Evolves w k a s) : Evolves w k a s.removeAged := by
  unfold State.removeAged
  split
  next list => exact h.ite (h.withBudget fun bound => by rw [list] at bound; exact (Nat.le_succ _).trans bound)
  next => exact h

theorem withdrawDueObjections (h : Evolves w k a s) : Evolves w k a s.withdrawDueObjections := by
  have raised (n : Nat) : ∀ {u : State}, Evolves w k a u → Evolves w k a (u.raiseObjectionsBy n) := by
    induction n with
    | zero => exact id
    | succ n ih => exact fun h => ih h.raiseObjectionsWithdrawn
  exact raised _ (h.withLiu (f := fun l => l.setQueue .reply _) (Liu.shorter_setQueue (dropUnbegun_length _ _ _)))

theorem partDeadlineExpires (h : Evolves w k a s) : Evolves w k a s.partDeadlineExpires := by
  unfold State.partDeadlineExpires
  split
  · exact h.ifSo abandonReception
  · exact h

theorem refreshTimerExpires (h : Evolves w k a s) : Evolves w k a s.refreshTimerExpires := by
  unfold State.refreshTimerExpires
  split
  · exact h.ifSo refreshTimedOut
  · exact h

theorem presenceTimerExpires (h : Evolves w k a s) : Evolves w k a s.presenceTimerExpires := by
  unfold State.presenceTimerExpires
  split
  next =>
    have stopped := h.setPresenceTimer (d := none) (fun no => nomatch no)
    exact h.ifSo fun _ => stopped.ite stopped.place
  next => exact h

theorem listenTimerExpires (h : Evolves True k a s) : Evolves True k a s.listenTimerExpires := by
  unfold State.listenTimerExpires
  split
  next running =>
    have listening (sound : s.membershipSound) : s.station = .listening := sound.2.1 (by simp [running])
    exact h.ifSo fun h => (h.enterJoining fun sound => .inl (listening sound)).ite (h.aloneStart listening)
  next => exact h

theorem absenceExpires (h : Evolves w k a s) : Evolves w k a (s.absenceExpires x) := by
  unfold State.absenceExpires
  split
  · exact h.ifSo fun h => h.setMember.stationGone
  · exact h

theorem isolationExpires (h : Evolves w k a s) : Evolves w k a s.isolationExpires := by
  unfold State.isolationExpires
  split
  next running => exact h.ifSo fun h => h.enterListening fun sound => .inr (sound.2.2.1 (by simp [running]))
  next => exact h

theorem gapExpires (h : Evolves w k a s) : Evolves w k a s.gapExpires := by
  unfold State.gapExpires
  split
  · exact h.ifSo joinFails
  · exact h

theorem renewalExpires (h : Evolves w k a s) : Evolves w k a s.renewalExpires := by
  unfold State.renewalExpires
  split
  next =>
    have stopped := h.mapJoin (g := fun rec => { rec with renewal := none })
    exact h.ifSo fun _ => stopped.ite stopped.place
  next => exact h

/-! ## Every command -/

variable {n : Time} {g : State → State}

theorem loseSupply (h : Evolves w k a s) : Evolves w k a s.loseSupply :=
  h.trans { (refl s : Evolves w k s s) with
    queues := fun b => ⟨b.budget, b.jobs, b.frames, b.commands, b.completions⟩ }

theorem whenPowered (keeps : ∀ {u}, Evolves w k s u → Evolves w k s (g u)) :
    ∃ s', Machine.whenPowered n g s = .next s' ∧ Evolves w k s s' := ⟨_, rfl, (keeps (refl s).advance).ite (refl s)⟩

theorem event (keeps : ∀ {u}, Evolves w k s u → Evolves w k s (g u)) :
    ∃ s', Machine.event n g s = .next s' ∧ Evolves w k s s' := whenPowered fun h => (keeps h).conclude

theorem arrival {y : Frame} {deliver : Option Queued → State → State}
    (delivers : y.goodForm = true → ∀ {own u}, Evolves w k s u → Evolves w k s (deliver own u)) :
    ∃ s', Machine.arrival n x y deliver s = .next s' ∧ Evolves w k s s' := by
  refine event fun h => ?_
  split
  next good => exact h.frameArrives (delivers good)
  next => exact h.faultyFrameEnds

theorem partArrival {y : Frame} {kind : TransferKind} {echoed : Queued → State → State} {suppress : State → State}
    (same : y.goodForm = f.goodForm) (goes : ∀ {v u}, Evolves True k s u → Evolves True k s (echoed v u))
    (suppresses : ∀ {u}, Evolves True k s u → Evolves True k s (suppress u)) :
    ∃ s', Machine.partArrival n x y kind f echoed suppress s = .next s' ∧ Evolves True k s s' := by
  unfold Machine.partArrival
  split
  next good =>
    refine whenPowered fun h => ?_
    dsimp only
    split
    · exact (goes h.lineHeard.leaveQueue.ownHeard).conclude
    · exact h.lineHeard.duplicateNumber.conclude.ite
        ((suppresses h.lineHeard.otherHeard).receivePart (same ▸ good)).concludeFrom
  next => exact event faultyFrameEnds

theorem refreshDataArrival : ∃ s', execRefreshDataArrival n x f s = .next s' ∧ Evolves True k s s' :=
  partArrival rfl (jobEchoed refreshPartEchoed) suppressRefresh

theorem snapArrival : ∃ s', execSnapArrival n x f s = .next s' ∧ Evolves True k s s' :=
  partArrival rfl (syncEchoed snapPartEchoed) fun h => h.suppressSync.restartGap

/-- An operation that may write the image, in a command that may. -/
theorem writes {m : Prop} {o : Host.Outcome State Fault Refusal} (may : m) (h : ∃ s', o = .next s' ∧ Evolves True k s s') :
    ∃ s', o = .next s' ∧ Evolves m k s s' := by
  obtain ⟨s', next, evolves⟩ := h
  exact ⟨s', next, { evolves with written := fun no => absurd may no }⟩

/-- Every command but a reset and the removals from the completion queue and the change set goes on to a next state, by
operations of the station that are whole. -/
theorem exec (c : Instr) (s : State) (keepsSlot : emptiesPostingSlot c = false) (keepsChanges : emptiesChangeSet c = false) :
    ∃ s', Machine.exec c s = .next s' ∧ Evolves (mayWriteImage c = true) True s s' := by
  cases c with
  | powerOn => cases keepsSlot
  | nreset => cases keepsSlot
  | getCompletionCompletionPoint => cases keepsSlot
  | postingSlotMove => cases keepsSlot
  | takeChangesCompletionPoint => cases keepsChanges
  | powerBelowOperatingRange => exact whenPowered loseSupply
  | configure => exact whenPowered configure
  | status => exact whenPowered beginRead
  | statusCompletionPoint => exact whenPowered completeStatus
  | putCommand => exact whenPowered putCommand
  | getCompletion => exact whenPowered takeCompletion
  | readImage => exact whenPowered beginRead
  | readRegion => exact whenPowered beginRead
  | takeChanges => exact whenPowered beginRead
  | abort => exact whenPowered abort
  | abortAll => exact whenPowered fun h => h.abort.cancelQueued
  | attach => exact event attach
  | detach => exact event detach
  | resync => exact event resync
  | readCounters => exact whenPowered beginRead
  | readCountersCompletionPoint => exact whenPowered completeCounters
  | unassignedTransaction => exact whenPowered begin
  | transactionEnd => exact whenPowered begin
  | openRegion => exact whenPowered (take fun h free => startOpen free h)
  | closeRegion => exact whenPowered (take fun h free => startClose free h)
  | renewRegion => exact whenPowered (take fun h free => startRenew free h)
  | writeRegion => exact whenPowered (take fun h free => startWrite free h)
  | repairRegion => exact whenPowered (take fun h free => startRepair free h)
  | copy => exact whenPowered (take fun h free => startCopy free h)
  | fill => exact whenPowered (take fun h free => startFill free h)
  | scan => exact whenPowered (take fun h free => startScan free h)
  | unknownKind => exact whenPowered (take fun h free => endAtStart free h)
  | cancelledRecord => exact whenPowered (take fun h free => endAtStart free h)
  | scanGroup => exact whenPowered nextGroup
  | openWaitDeadlineExpiry => exact whenPowered expireOpenWait
  | claimArrival => exact arrival fun _ => claimArrives
  | objectArrival => exact arrival fun _ => objectArrives
  | updateArrival =>
    refine writes rfl (arrival fun good _ _ h => h.updateArrives ?_)
    simp only [Frame.goodForm, Update.goodForm, Bool.and_eq_true] at good
    simpa [updateFits] using good.2
  | renewArrival => exact arrival fun _ => renewArrives
  | releaseArrival => exact arrival fun _ => releaseArrives
  | presenceArrival => exact arrival fun _ => fun h => h.ifSo presenceCheck
  | refreshReqArrival => exact arrival fun _ => fun h => h.refreshReqEchoed.ite h.refreshRequested
  | refreshDataArrival => exact writes rfl refreshDataArrival
  | joinReqArrival =>
    refine arrival fun _ own _ h => ?_
    cases own with
    | some => exact h.joinReqEchoed
    | none => exact h.joinRequested
  | dirArrival =>
    refine arrival fun good own _ h => ?_
    cases own with
    | some => exact h.syncEchoed dirEchoed
    | none => exact h.dirArrives (by simp [Frame.goodForm] at good; exact good.2)
  | snapArrival => exact writes rfl snapArrival
  | syncEndArrival =>
    refine arrival fun _ own _ h => ?_
    cases own with
    | some => exact h.syncEchoed syncEndEchoed
    | none => exact h.syncEndArrives
  | leaveArrival => exact arrival fun _ => fun h => h.leaveEchoed.ite h.leaveArrives
  | faultyFrameEnd => exact event faultyFrameEnds
  | lineActivityDeferral => exact whenPowered fun h => h.withLiu
  | accessInstant => exact event access
  | collision => exact event collide
  | jamEnd => exact event endJam
  | waitingPlacingRequest => exact whenPowered placeWaiting
  | confirmationExpiry => exact event confirmationExpires
  | leaseExpiry => exact event leaseExpires
  | settleExpiry => exact event settleExpires
  | ownerSideExpiry => exact event ownerSideExpires
  | overheardClaimExpiry => exact event overheardExpires
  | budgetEntryRemoval => exact event removeAged
  | objectionDeadlineExpiry => exact event withdrawDueObjections
  | partDeadlineExpiry => exact event partDeadlineExpires
  | refreshTimerExpiry => exact event refreshTimerExpires
  | presenceTimerExpiry => exact event presenceTimerExpires
  | listenTimerExpiry => exact writes rfl (event listenTimerExpires)
  | absenceDeadlineExpiry => exact event absenceExpires
  | isolationTimerExpiry => exact event isolationExpires
  | gapDeadlineExpiry => exact event gapExpires
  | renewalDeadlineExpiry => exact event renewalExpires
  | repairRequest => exact event requestRepair

end Evolves

end Sys2Proof.Machine
end

section
/-! PROOF. The invariants that every command keeps (Safety): the image, the lists, the directory, the station state and the
change set; the frame of the queue of commands, of the clock, and of the image. -/

-- One declaration at a time: side by side, the case splits of these proofs want more threads than the memory limit allows.
set_option Elab.async false

namespace Sys2Proof.Machine

/-! ## The rows that empty the posting slot or the change set -/

/-- The part of `Evolves` that these rows have too. -/
structure Keeps (s t : State) : Prop where
  now : s.now ≤ t.now
  pending : t.pending = s.pending
  ascending : s.host.changeSet.Pairwise (· < ·) → t.host.changeSet.Pairwise (· < ·)
  lists : s.listsBounded → t.listsBounded
  image : s.imageSound → t.imageSound
  membership : s.membershipSound → t.membershipSound
  directory : s.directorySound → s.membershipSound → t.directorySound

theorem Evolves.keeps {w : Prop} {s t : State} (h : Evolves w True s t) : Keeps s t where
  now := h.now
  pending := h.pending
  ascending := h.ascending
  lists bounded := by
    obtain ⟨queues, repair⟩ := State.listsBounded_iff.1 bounded
    exact State.listsBounded_iff.2 ⟨h.queues queues, h.repair trivial repair⟩
  image := h.image
  membership := h.membership trivial
  directory sound before := h.directory trivial before sound

/-- A row that changes the LIU, the command unit and the host link only. -/
theorem LineOnly.keeps {s t : State} (h : LineOnly s t) (changes : t.host.changeSet.Sublist s.host.changeSet)
    (queues : QueuesBounded s → QueuesBounded t) : Keeps s t where
  now := h.now.ge
  pending := h.pending
  ascending := List.Pairwise.sublist changes
  lists bounded := by
    obtain ⟨before, repair⟩ := State.listsBounded_iff.1 bounded
    exact State.listsBounded_iff.2 ⟨queues before, h.repairListSound repair⟩
  image := h.imageSound
  membership := h.membershipSound
  directory sound _ := h.directorySound sound

theorem Keeps.refl (s : State) : Keeps s s := (LineOnly.refl s).keeps (.refl _) id

theorem Keeps.trans {s t u : State} (h : Keeps s t) (g : Keeps t u) : Keeps s u where
  now := h.now.trans g.now
  pending := g.pending.trans h.pending
  ascending := g.ascending ∘ h.ascending
  lists := g.lists ∘ h.lists
  image := g.image ∘ h.image
  membership := g.membership ∘ h.membership
  directory sound before := g.directory (h.directory sound before) (h.membership before)

/-- The initial values meet every invariant. -/
theorem State.resetAt_sound (t : Time) :
    (State.resetAt t).imageSound ∧ (State.resetAt t).listsBounded ∧ (State.resetAt t).directorySound ∧
      (State.resetAt t).membershipSound := by
  have replica (r : Region) : (State.resetAt t).replica r = Replica.reset := by simp [State.replica, State.resetAt]
  refine ⟨⟨fun r => by rw [replica]; rfl, fun _ eq => (nomatch eq), fun _ eq => nomatch eq⟩, ?_,
    State.directorySound_of_unknown rfl, ?_⟩
  · refine State.listsBounded_iff.2 ⟨⟨Nat.zero_le _, Nat.zero_le _, fun q => by cases q <;> exact Nat.zero_le _,
      Nat.zero_le _, Nat.zero_le _⟩, State.repairListSound_of_empty rfl rfl⟩
  · refine State.membershipSound_iff.2 ?_
    constructor <;> simp [State.resetAt, HostLink.reset, Membership.reset]

theorem State.restart_keeps (s : State) (t : Time) : Keeps s (s.restart t) := by
  obtain ⟨image, lists, directory, membership⟩ := State.resetAt_sound (max s.now t)
  exact ⟨le_max_left _ _, rfl, fun _ => List.Pairwise.nil, fun _ => lists, fun _ => image, fun _ => membership,
    fun _ _ => directory⟩

theorem State.movePosted_lineOnly (s : State) : LineOnly s s.movePosted := by
  unfold State.movePosted
  split
  · exact s.post_lineOnly _
  all_goals exact .refl s

theorem State.movePosted_changeSet (s : State) : s.movePosted.host.changeSet = s.host.changeSet := by
  unfold State.movePosted
  split
  · exact s.post_changeSet _
  all_goals rfl

theorem QueuesBounded.movePosted {s : State} (b : QueuesBounded s) : QueuesBounded s.movePosted := by
  unfold State.movePosted
  split
  · exact b.post _
  all_goals exact b

theorem State.completeCompletion_lineOnly (s : State) : LineOnly s s.completeCompletion := by
  unfold State.completeCompletion
  split
  · exact (s.withHost_lineOnly _ rfl).trans (State.movePosted_lineOnly _)
  · exact .refl s

theorem State.completeCompletion_changeSet (s : State) : s.completeCompletion.host.changeSet = s.host.changeSet := by
  unfold State.completeCompletion
  split
  · exact State.movePosted_changeSet _
  · rfl

theorem QueuesBounded.completeCompletion {s : State} (b : QueuesBounded s) : QueuesBounded s.completeCompletion := by
  unfold State.completeCompletion
  split
  · refine QueuesBounded.movePosted ⟨b.budget, b.jobs, b.frames, b.commands, ?_⟩
    exact (List.length_tail ▸ Nat.sub_le _ _ : s.host.completionQueue.tail.length ≤ _).trans b.completions
  · exact b

theorem State.completeChanges_lineOnly (s : State) : LineOnly s s.completeChanges := by
  unfold State.completeChanges
  split
  · exact s.withHost_lineOnly _ rfl
  · exact .refl s

theorem State.completeChanges_keeps (s : State) : Keeps s s.completeChanges := by
  refine s.completeChanges_lineOnly.keeps ?_ fun b => ?_
  all_goals unfold State.completeChanges
  · split
    · exact List.filter_sublist
    · exact .refl _
  · split
    · exact ⟨b.budget, b.jobs, b.frames, b.commands, b.completions⟩
    · exact b

theorem whenPowered_keeps {t : Time} {f : State → State} {s : State} (keeps : ∀ u, Keeps u (f u)) :
    ∃ s', whenPowered t f s = .next s' ∧ Keeps s s' := by
  refine ⟨_, rfl, ?_⟩
  split
  · exact (Evolves.refl (w := False) s).advance.keeps.trans (keeps _)
  · exact .refl s

theorem exec_keeps (c : Instr) (s : State) : ∃ s', exec c s = .next s' ∧ Keeps s s' := by
  by_cases ordinary : emptiesPostingSlot c = false ∧ emptiesChangeSet c = false
  · obtain ⟨s', next, evolves⟩ := Evolves.exec c s ordinary.1 ordinary.2
    exact ⟨s', next, evolves.keeps⟩
  · cases c with
    | powerOn t => exact ⟨_, rfl, s.restart_keeps t⟩
    | nreset t =>
      refine ⟨_, rfl, ?_⟩
      split
      · exact s.restart_keeps t
      · exact .refl s
    | getCompletionCompletionPoint => exact whenPowered_keeps fun u =>
        u.completeCompletion_lineOnly.keeps (by rw [u.completeCompletion_changeSet]) (·.completeCompletion)
    | postingSlotMove => exact whenPowered_keeps fun u =>
        u.movePosted_lineOnly.keeps (by rw [u.movePosted_changeSet]) (·.movePosted)
    | takeChangesCompletionPoint => exact whenPowered_keeps State.completeChanges_keeps
    | _ => exact absurd ⟨rfl, rfl⟩ ordinary

theorem keeps_of_exec {c : Instr} {s s' : State} (next : exec c s = .next s') : Keeps s s' := by
  obtain ⟨t, eq, keeps⟩ := exec_keeps c s
  obtain rfl : t = s' := by simpa [eq] using next
  exact keeps

theorem whenPowered_of_not_powered {t : Time} {f : State → State} {s : State} (off : s.powered = false) :
    whenPowered t f s = .next s := by
  simp [whenPowered, off]

theorem event_of_not_powered {t : Time} {f : State → State} {s : State} (off : s.powered = false) :
    event t f s = .next s := whenPowered_of_not_powered off

theorem arrival_of_not_powered {t : Time} {x : Station} {f : Frame} {deliver : Option Queued → State → State} {s : State}
    (off : s.powered = false) : arrival t x f deliver s = .next s := event_of_not_powered off

theorem partArrival_of_not_powered {t : Time} {x : Station} {f : Frame} {kind : TransferKind} {p : PartField}
    {echoed : Queued → State → State} {suppress : State → State} {s : State} (off : s.powered = false) :
    partArrival t x f kind p echoed suppress s = .next s := by
  unfold partArrival
  split
  · exact whenPowered_of_not_powered off
  · exact event_of_not_powered off

/-- Without supply no command but POWER_ON acts (log 6): every other row is one of the four forms above. -/
theorem exec_of_not_powered {c : Instr} {s : State} (off : s.powered = false) (other : ∀ t, c ≠ .powerOn t) :
    exec c s = .next s := by
  cases c with
  | powerOn t => exact absurd rfl (other t)
  | nreset => simp [exec, execNreset, off]
  | _ =>
    simp only [exec, execConfigure, execStatus, execStatusCompletionPoint, execPutCommand, execGetCompletion,
      execGetCompletionCompletionPoint, execReadImage, execReadRegion, execTakeChanges,
      execTakeChangesCompletionPoint, execAbort, execAbortAll, execAttach, execDetach, execResync,
      execReadCounters, execReadCountersCompletionPoint, execUnassignedTransaction, execTransactionEnd,
      execOpen, execClose, execRenew, execWrite, execRepair, execCopy, execFill, execScan, execUnknownKind,
      execCancelledRecord, execScanGroup, execPostingSlotMove, execOpenWaitDeadlineExpiry, execClaimArrival,
      execObjectArrival, execUpdateArrival, execRenewArrival, execReleaseArrival, execPresenceArrival,
      execRefreshReqArrival, execRefreshDataArrival, execJoinReqArrival, execDirArrival, execSnapArrival,
      execSyncEndArrival, execLeaveArrival, execFaultyFrameEnd, execLineActivityDeferral, execAccessInstant,
      execCollision, execJamEnd, execWaitingPlacingRequest, execConfirmationExpiry, execLeaseExpiry,
      execSettleExpiry, execOwnerSideExpiry, execOverheardClaimExpiry, execBudgetEntryRemoval,
      execObjectionDeadlineExpiry, execPartDeadlineExpiry, execRefreshTimerExpiry, execPresenceTimerExpiry,
      execListenTimerExpiry, execAbsenceDeadlineExpiry, execIsolationTimerExpiry, execGapDeadlineExpiry,
      execRenewalDeadlineExpiry, execRepairRequest, execPowerBelowOperatingRange, whenPowered_of_not_powered
      off, event_of_not_powered off, arrival_of_not_powered off, partArrival_of_not_powered off]

/-! ## The frame of the change set and of the image -/

theorem changeSet_kept {c : Instr} {s s' : State} (next : exec c s = .next s') (keeps : emptiesChangeSet c = false) :
    s.host.changeSet ⊆ s'.host.changeSet := by
  by_cases slot : emptiesPostingSlot c = false
  · obtain ⟨t, eq, evolves⟩ := Evolves.exec c s slot keeps
    obtain rfl : t = s' := by simpa [eq] using next
    exact evolves.told
  · have told {t : Time} {f : State → State} (same : ∀ u, (f u).host.changeSet = u.host.changeSet)
        (next : whenPowered t f s = .next s') : s.host.changeSet ⊆ s'.host.changeSet := by
      obtain rfl : (if s.powered then f (s.advance t) else s) = s' := by simpa [whenPowered] using next
      split
      · rw [same]
        exact List.Subset.refl _
      · exact List.Subset.refl _
    cases c with
    | powerOn => cases keeps
    | nreset => cases keeps
    | getCompletionCompletionPoint => exact told State.completeCompletion_changeSet next
    | postingSlotMove => exact told State.movePosted_changeSet next
    | _ => exact absurd rfl slot

/-- A row that changes the LIU, the command unit and the host link only writes no replica. -/
theorem whenPowered_replica {t : Time} {f : State → State} {s s' : State} (line : ∀ u, LineOnly u (f u))
    (next : whenPowered t f s = .next s') (r : Region) : s'.replica r = s.replica r := by
  obtain rfl : (if s.powered then f (s.advance t) else s) = s' := by simpa [whenPowered] using next
  split
  · exact (line _).replica r
  · rfl

theorem image_kept {c : Instr} {s s' : State} (next : exec c s = .next s') (keeps : mayWriteImage c = false) (r : Region) :
    (s'.replica r).content = (s.replica r).content ∧ (s'.replica r).version = (s.replica r).version := by
  by_cases ordinary : emptiesPostingSlot c = false ∧ emptiesChangeSet c = false
  · obtain ⟨t, eq, evolves⟩ := Evolves.exec c s ordinary.1 ordinary.2
    obtain rfl : t = s' := by simpa [eq] using next
    exact evolves.written (by simp [keeps]) r
  · have same : s'.replica r = s.replica r := by
      cases c with
      | powerOn => cases keeps
      | nreset => cases keeps
      | getCompletionCompletionPoint => exact whenPowered_replica State.completeCompletion_lineOnly next r
      | postingSlotMove => exact whenPowered_replica State.movePosted_lineOnly next r
      | takeChangesCompletionPoint => exact whenPowered_replica State.completeChanges_lineOnly next r
      | _ => exact absurd ⟨rfl, rfl⟩ ordinary
    rw [same]
    exact ⟨rfl, rfl⟩

/-! ## The obligations -/

/-- Settles O4: no operation writes a buffer out of canonical form. -/
theorem everyCommandKeepsTheImageSound : Obligations.EveryCommandKeepsTheImageSound :=
  fun _ _ _ sound next => (keeps_of_exec next).image sound

/-- Settles O5. -/
theorem everyCommandKeepsTheListsBounded : Obligations.EveryCommandKeepsTheListsBounded :=
  fun _ _ _ bounded next => (keeps_of_exec next).lists bounded

/-- Settles O6: an entry leaves UNKNOWN only in a station that transmits, and every other write carries its form over. -/
theorem everyCommandKeepsTheDirectorySound : Obligations.EveryCommandKeepsTheDirectorySound :=
  fun _ _ _ sound before next => (keeps_of_exec next).directory sound before

/-- Settles O7: each entry into a station state is whole. -/
theorem everyCommandKeepsTheMembershipSound : Obligations.EveryCommandKeepsTheMembershipSound :=
  fun _ _ _ sound next => (keeps_of_exec next).membership sound

/-- Settles O2. -/
theorem everyCommandCompletesAndKeepsTheQueue : Obligations.EveryCommandCompletesAndKeepsTheQueue := by
  intro c s
  obtain ⟨s', next, keeps⟩ := exec_keeps c s
  refine ⟨s', next, keeps.pending, keeps.now, fun off other => ?_⟩
  rw [exec_of_not_powered off other] at next
  exact (Host.Outcome.next.inj next).symm

/-- Settles O8. -/
theorem everyCommandKeepsTheChangeSet : Obligations.EveryCommandKeepsTheChangeSet :=
  fun _ _ _ next => ⟨(keeps_of_exec next).ascending, fun keeps _ mem => changeSet_kept next keeps mem⟩

/-- Settles O1: by the two branches of a step. -/
theorem stepRunsTheFrontCommand : Obligations.StepRunsTheFrontCommand := by
  refine ⟨fun c rest s => rfl, fun s empty => ?_⟩
  unfold step
  rw [empty]

/-- Settles O9. -/
theorem resetIsSound : Obligations.ResetIsSound := State.resetAt_sound 0

end Sys2Proof.Machine
end

section
/-! PROOF. The bytes that an UPDATE's arrival leaves as they were (R55, R60), and the posting slot (R161, R163). -/

-- One declaration at a time: side by side, the case splits of these proofs want more threads than the memory limit allows.
set_option Elab.async false

namespace Sys2Proof.Machine

/-! ## The bytes outside an UPDATE -/

theorem readByte_writeByte_of_ne {m : Memory} {a x : Nat} {b : Byte} (ne : x ≠ a) :
    readByte (writeByte m a b) x = readByte m x := by
  induction m with
  | nil =>
    unfold writeByte
    split
    · rfl
    · simp [readByte, ne.symm]
  | cons c rest ih =>
    obtain ⟨k, v⟩ := c
    unfold writeByte
    split
    · split
      · rfl
      · simp [readByte, ne.symm]
    · split
      next eq =>
        subst eq
        split <;> simp [readByte, ne.symm]
      next => simp only [readByte, ih]

/-- The bytes before a run, after it, and under a clear mask bit. -/
theorem readByte_writeSelected_outside {mask : Option (BitVec 32)} {a x : Nat} {bs : List Byte} {m : Memory} {i : Nat}
    (outside : x < a + i ∨ a + i + bs.length ≤ x ∨ maskSelects mask (x - a) = false) :
    readByte (writeSelected mask a m i bs) x = readByte m x := by
  induction bs generalizing m i with
  | nil => rfl
  | cons b rest ih =>
    have later : x < a + (i + 1) ∨ a + (i + 1) + rest.length ≤ x ∨ maskSelects mask (x - a) = false := by
      rw [List.length_cons] at outside
      rcases outside with before | past | clear
      · exact .inl (by omega)
      · exact .inr (.inl (by omega))
      · exact .inr (.inr clear)
    rw [writeSelected, ih later]
    split
    next selected =>
      refine readByte_writeByte_of_ne fun eq => ?_
      subst eq
      simp [selected] at outside
    next => rfl

/-- Outside the bytes that `u` carries and selects, every replica reads the same. -/
def BytesKept (u : Update) (s t : State) : Prop :=
  ∀ (r : Region) (a : Nat),
    r ≠ u.region ∨ a < u.offset.toNat ∨ u.offset.toNat + u.data.length ≤ a ∨
      maskSelects u.mask (a - u.offset.toNat) = false →
    readByte (t.replica r).content a = readByte (s.replica r).content a

theorem BytesKept.trans {u : Update} {s t v : State} (h : BytesKept u s t) (g : BytesKept u t v) : BytesKept u s v :=
  fun r a outside => (g r a outside).trans (h r a outside)

/-- An operation that writes no replica. -/
theorem Evolves.bytesKept {u : Update} {s t : State} (h : Evolves False True s t) : BytesKept u s t :=
  fun r a _ => by rw [(h.written id r).1]

theorem State.setReplica_applied_bytesKept (s : State) (u : Update) :
    BytesKept u s (s.setReplica u.region ((s.replica u.region).applied u)) := by
  intro r a outside
  rw [State.replica_setReplica]
  split
  next eq =>
    subst eq
    refine readByte_writeSelected_outside ?_
    simpa using outside
  next => rfl

theorem State.updateAtCurrent_bytesKept (s : State) (x : Station) (u : Update) (echo : Bool) :
    BytesKept u s (s.updateAtCurrent x u echo) := by
  have kept {t : State} (h : Evolves False True (s.setReplica u.region ((s.replica u.region).applied u)) t) :
      BytesKept u s t := (s.setReplica_applied_bytesKept u).trans h.bytesKept
  unfold State.updateAtCurrent
  dsimp only
  split
  · exact kept ((Evolves.refl _).ite (Evolves.refl _).addChange).noticeUpdateApplied
  · exact (Evolves.refl s).versionGap.bytesKept

theorem State.updateAtReplica_bytesKept {u : Update} (fits : updateFits u = true) (s : State) (answer : OwnerAnswer)
    (x : Station) (echo : Bool) : BytesKept u s (s.updateAtReplica answer x u echo) := by
  have same := Evolves.refl (w := False) (k := True) s
  cases answer with
  | unknown => exact same.bytesKept
  | no => exact ((same.becomeStale.ite same).raiseForeignUpdates).bytesKept
  | yes =>
    unfold State.updateAtReplica
    dsimp only
    split
    · exact s.updateAtCurrent_bytesKept x u echo
    · exact ((same.keepForCatchUp fits).ite (same.returnLost.ite same)).bytesKept

theorem State.updateArrives_bytesKept {u : Update} (fits : updateFits u = true) (s : State) (x : Station) (echo : Bool) :
    BytesKept u s (s.updateArrives x u echo) := by
  have directory : Evolves False True s
      (if s.ownerAnswer u.region x = .yes then s.updateAtDirectory x u echo else s) :=
    .branch (fun yes => (Evolves.refl s).updateAtDirectory (by
      unfold State.ownerAnswer at yes
      split at yes <;> simp_all)) fun _ => .refl s
  unfold State.updateArrives
  dsimp only
  generalize (if s.ownerAnswer u.region x = .yes then s.updateAtDirectory x u echo else s) = t at directory ⊢
  have after {v w : State} (h : Evolves False True v w) (g : BytesKept u s v) : BytesKept u s w := g.trans h.bytesKept
  have replica := directory.bytesKept.trans (State.updateAtReplica_bytesKept fits t (s.ownerAnswer u.region x) x echo)
  exact after ((Evolves.refl _).ifSo Evolves.noticeNoLongerHeld)
    (after ((Evolves.refl _).ifSo Evolves.updateEchoed) replica)

theorem State.frameArrives_bytesKept {u : Update} {f : Frame} {deliver : Option Queued → State → State}
    (delivers : ∀ own t, BytesKept u t (deliver own t)) (s : State) (x : Station) :
    BytesKept u s (s.frameArrives x f deliver) := by
  have heard := Evolves.lineHeard (x := x) (Evolves.refl (w := False) (k := True) s)
  unfold State.frameArrives
  dsimp only
  split
  · exact heard.leaveQueue.ownHeard.bytesKept.trans (delivers _ _)
  · split
    · exact heard.duplicateNumber.bytesKept
    · exact heard.otherHeard.bytesKept.trans (delivers _ _)

theorem updateArrival_bytesKept {t : Time} {x : Station} {u : Update} {s s' : State}
    (next : exec (.updateArrival t x u) s = .next s') : BytesKept u s s' := by
  have conclude {v w : State} (h : BytesKept u s v) : BytesKept u s (v.conclude w) :=
    h.trans (Evolves.refl (w := False) (k := True) v).conclude.bytesKept
  have eq : (if s.powered then ((if (Frame.update u).goodForm then State.frameArrives x (.update u)
      (fun own s => s.updateArrives x u own.isSome) else State.faultyFrameEnds) (s.advance t)).conclude (s.advance t)
      else s) = s' := Host.Outcome.next.inj next
  rw [← eq]
  have advanced := Evolves.advance (n := t) (Evolves.refl (w := False) (k := True) s)
  split
  · refine conclude (advanced.bytesKept.trans ?_)
    split
    next good =>
      have fits : updateFits u = true := by
        simp only [Frame.goodForm, Update.goodForm, Bool.and_eq_true] at good
        simpa [updateFits] using good.2
      exact State.frameArrives_bytesKept (fun own v => v.updateArrives_bytesKept fits x own.isSome) _ _
    next => exact (Evolves.refl _).faultyFrameEnds.bytesKept
  · exact (Evolves.refl s).bytesKept

/-- Settles O3: the image is written by no operation of another command, and an UPDATE's arrival writes a replica at one place,
with the bytes that its mask selects. -/
theorem onlyTheNamedCommandsWriteTheImage : Obligations.OnlyTheNamedCommandsWriteTheImage :=
  ⟨fun _ _ _ next keeps => image_kept next keeps, fun _ _ _ _ _ next => updateArrival_bytesKept next⟩

/-! ## The posting slot -/

theorem whenPowered_next {t : Time} {f : State → State} {s : State} (powered : s.powered = true) :
    whenPowered t f s = .next (f (s.advance t)) := by
  simp [whenPowered, powered]

theorem State.take_of_busy {p : QueuedCommand → Bool} {f : CommandRecord → State → State} {s : State}
    (busy : s.unit ≠ .idle) : s.take p f = s := by
  unfold State.take
  split
  next idle _ => exact absurd idle busy
  next => rfl

theorem State.take_of_idle {p : QueuedCommand → Bool} {f : CommandRecord → State → State} {s : State} {q : QueuedCommand}
    {rest : List QueuedCommand} (idle : s.unit = .idle) (queue : s.host.commandQueue = q :: rest) (takes : p q = true) :
    s.take p f = f q.record (s.withHost fun h => { h with commandQueue := rest }) := by
  simp [State.take, idle, queue, takes]

theorem State.post_of_room {s : State} {c : Completion} (room : s.host.completionQueue.length < 16) :
    s.post c = { s with unit := .idle, host := { s.host with completionQueue := s.host.completionQueue ++ [c] } } := by
  exact if_pos room

theorem State.movePosted_of_posting {s : State} {p : Completion} (posting : s.unit = .posting p) :
    s.movePosted = s.post p := by
  unfold State.movePosted
  simp [posting]

/-! ## The command queue, the answer byte and the state-changed flag -/

/-- A STATUS is in progress, and the state-changed flag was set again since its taking point (R200). -/
def State.toldAgain (s : State) : Prop := s.host.stateChanged = true ∧ s.host.transaction = .statusTaken true

/-- The supply, the command queue and the answer byte stand, and a STATUS in progress learns of a new station state (R200). -/
structure HostKept (s t : State) : Prop where
  powered : t.powered = s.powered
  commands : t.host.commandQueue = s.host.commandQueue
  answer : t.host.answer = s.host.answer
  status : (∃ again, s.host.transaction = .statusTaken again) → ∃ again, t.host.transaction = .statusTaken again
  told : s.toldAgain → t.toldAgain

namespace HostKept

variable {a s t : State} {q : QueueId} {i : Item} {r : Region} {e : Entry} {c : CommandRecord} {run : Running} {b : Bool}

theorem refl (s : State) : HostKept s s := ⟨rfl, rfl, rfl, id, id⟩

theorem trans (h : HostKept a s) (g : HostKept s t) : HostKept a t :=
  ⟨g.powered.trans h.powered, g.commands.trans h.commands, g.answer.trans h.answer, g.status ∘ h.status, g.told ∘ h.told⟩

theorem of_host (h : HostKept a s) (same : t.host = s.host) (powered : t.powered = s.powered := by rfl) : HostKept a t :=
  h.trans ⟨powered, by rw [same], by rw [same], fun status => by rwa [same], fun told => by rwa [State.toldAgain, same]⟩

theorem ite {p : Prop} {_ : Decidable p} (h : HostKept a s) (g : HostKept a t) : HostKept a (if p then s else t) := by
  split
  · exact h
  · exact g

theorem ifSo {p : Prop} {_ : Decidable p} (h : HostKept a s) (step : HostKept a s → HostKept a t) :
    HostKept a (if p then t else s) := (step h).ite h

theorem foldl {α : Type} {f : State → α → State} {xs : List α} (h : HostKept a s)
    (step : ∀ {u x}, HostKept a u → HostKept a (f u x)) : HostKept a (xs.foldl f s) := by
  induction xs generalizing s with
  | nil => exact h
  | cons x rest ih => exact ih (step h)

theorem place (h : HostKept a s) : HostKept a (s.place q i) :=
  h.of_host (s.place_host q i) (s.place_lineOnly q i).powered
theorem placeObject (h : HostKept a s) : HostKept a (s.placeObject i) := by
  have placed := h.of_host (s.placeAllWaiting_host .reply) (s.placeAllWaiting_lineOnly .reply).powered
  exact (placed.of_host (State.append_host _ _ _) (State.append_lineOnly _ _ _).powered).ite
    (placed.trans ⟨rfl, rfl, rfl, id, id⟩)
theorem cancel {p : Item → Bool} (h : HostKept a s) : HostKept a (s.cancel q p) := h.of_host rfl
theorem withLiu {f : Liu → Liu} (h : HostKept a s) : HostKept a (s.withLiu f) := h.of_host rfl
theorem withMembership {f : Membership → Membership} (h : HostKept a s) : HostKept a (s.withMembership f) := h.of_host rfl
theorem withTransfer {f : Transfer → Transfer} (h : HostKept a s) : HostKept a (s.withTransfer f) := h.of_host rfl
theorem withBudget {es : List BudgetEntry} (h : HostKept a s) : HostKept a { s with budget := es } := h.of_host rfl
theorem proceed {p : Progress} (h : HostKept a s) : HostKept a (s.proceed run p) := h.of_host rfl
theorem setUnit {u : CommandUnit} (h : HostKept a s) : HostKept a { s with unit := u } := h.of_host rfl
theorem addChange (h : HostKept a s) : HostKept a (s.addChange r) := by
  have marked {again : Bool} (taken : s.host.transaction = .statusTaken again) :
      (s.addChange r).host.transaction = .statusTaken again := by
    simp [State.addChange, Transaction.markAgain, taken]
  refine h.trans ⟨rfl, rfl, rfl, fun ⟨again, taken⟩ => ⟨again, marked taken⟩, fun ⟨changed, taken⟩ => ⟨changed, marked taken⟩⟩
theorem addChanges {rs : List Region} (h : HostKept a s) : HostKept a (s.addChanges rs) := h.foldl addChange

/-- A new station state during a STATUS sets the flag again (R98, R200). -/
theorem toldAgain_setStation {st : StationState} (status : ∃ again, s.host.transaction = .statusTaken again) :
    (s.setStation st).toldAgain := by
  obtain ⟨again, taken⟩ := status
  simp [State.toldAgain, State.setStation, State.setStateChanged, taken]

theorem setStation {st : StationState} (h : HostKept a s) : HostKept a (s.setStation st) :=
  h.trans ⟨rfl, rfl, rfl, fun status => ⟨true, (toldAgain_setStation status).2⟩, fun told => toldAgain_setStation ⟨true, told.2⟩⟩

theorem setOwnEntry {p : Presence} (h : HostKept a s) : HostKept a (s.setOwnEntry p) := by
  rw [State.setOwnEntry_eq]
  exact h.withMembership

theorem post {k : Completion} (h : HostKept a s) : HostKept a (s.post k) := by
  unfold State.post
  split
  · exact h.trans ⟨rfl, rfl, rfl, id, id⟩
  · exact h.setUnit

theorem endCommand {status : Status} {reason : Reason} {v : Version} {n : Nat} {p : Int} {found exhausted released : Bool}
    (h : HostKept a s) : HostKept a (s.endCommand run status reason v n p found exhausted released) := h.post

theorem endAtStart {status : Status} (h : HostKept a s) : HostKept a (s.endAtStart c status) := h.post

theorem openSetback {clock : WaitClock} {reason : Reason} (h : HostKept a s) :
    HostKept a (s.openSetback run clock reason) := by
  refine h.endCommand.ite ?_
  cases clock with
  | noWait => exact h.endCommand
  | till _ => exact h.proceed
  | expired => exact h.endCommand

theorem attemptClaim {clock : WaitClock} {before : Reason} (h : HostKept a s) :
    HostKept a (s.attemptClaim run clock before) := h.openSetback.ite (h.openSetback.ite h.place.proceed)

theorem placeChunk {source : Option Region} {n : Nat} (h : HostKept a s) : HostKept a (s.placeChunk run source n b) :=
  h.place.proceed

theorem noticeRegionNotCurrent (h : HostKept a s) : HostKept a (s.noticeRegionNotCurrent r) := by
  unfold State.noticeRegionNotCurrent
  split
  · split
    · exact h.endCommand.ite h
    · exact h.cancel.endCommand.ite h
    · exact h.cancel.endCommand.ite (h.cancel.endCommand.ite h)
    · exact h.endCommand.ite h
    all_goals exact h
  · exact h

theorem noticeLeftMember (h : HostKept a s) : HostKept a s.noticeLeftMember := by
  unfold State.noticeLeftMember
  split
  · split
    · exact h
    · exact h.endCommand
  · exact h

theorem abortRunning (h : HostKept a s) : HostKept a s.abortRunning := by
  unfold State.abortRunning
  split
  · split
    · exact h.endCommand
    · exact h.setUnit.ite h.cancel.endCommand
    · exact h.setUnit
    iterate 4 exact h.setUnit.ite h.cancel.endCommand
    · exact h.endCommand
  · exact h

theorem changeCondition {k : Condition} (h : HostKept a s) : HostKept a (s.changeCondition r k) := by
  by_cases same : (s.replica r).condition = k
  · rw [State.changeCondition_same same]
    exact h
  · have changed : HostKept a ((s.recondition r k).addChange r) := addChange (h.of_host (t := s.recondition r k) rfl)
    rw [State.changeCondition_eq same]
    exact changed.noticeRegionNotCurrent.ite changed

theorem returnLost (h : HostKept a s) : HostKept a (s.returnLost r) :=
  h.ifSo fun h => HostKept.changeCondition (h.of_host rfl)

/-! ## The entries into the station states, and the conclusion (R98 to R120) -/

theorem resetDirectory (h : HostKept a s) : HostKept a (s.resetDirectory e) := by
  unfold State.resetDirectory
  exact addChanges (h.of_host rfl)

theorem unsyncReplicas (h : HostKept a s) : HostKept a s.unsyncReplicas := by
  have changed : HostKept a ((s.withReplicas s.unsynced).addChanges
      (allRegions.filter fun r => (s.replica r).condition != .unsynced)) := addChanges (h.of_host rfl)
  rw [State.unsyncReplicas_eq]
  dsimp only
  split
  · exact changed.noticeRegionNotCurrent.ite changed
  · exact changed

theorem freshReplicas (h : HostKept a s) : HostKept a s.freshReplicas := addChanges (h.of_host rfl)

theorem emptyTransfer (h : HostKept a s) : HostKept a s.emptyTransfer := h.of_host rfl

theorem enterListening (h : HostKept a s) : HostKept a s.enterListening :=
  h.setOwnEntry.withMembership.withLiu.setStation

theorem placeAttempt (h : HostKept a s) : HostKept a s.placeAttempt := h.withMembership.cancel.place

theorem enterJoining (h : HostKept a s) : HostKept a s.enterJoining :=
  ((h.ifSo noticeLeftMember).setOwnEntry.withMembership.withLiu).resetDirectory.unsyncReplicas.emptyTransfer.setStation.placeAttempt

theorem aloneStart (h : HostKept a s) : HostKept a s.aloneStart :=
  h.resetDirectory.freshReplicas.withTransfer.setOwnEntry.withMembership.setStation

theorem toldAgain_enterJoining (status : ∃ again, s.host.transaction = .statusTaken again) : s.enterJoining.toldAgain :=
  (HostKept.refl _).placeAttempt.told (toldAgain_setStation
    ((((HostKept.refl s).ifSo noticeLeftMember).setOwnEntry.withMembership.withLiu).resetDirectory.unsyncReplicas.emptyTransfer.status
      status))

theorem toldAgain_aloneStart (status : ∃ again, s.host.transaction = .statusTaken again) : s.aloneStart.toldAgain :=
  toldAgain_setStation
    ((HostKept.refl s).resetDirectory.freshReplicas.withTransfer.setOwnEntry.withMembership.status status)

theorem enterLeaving {cause : LeaveCause} (h : HostKept a s) : HostKept a (s.enterLeaving cause) := by
  have released : HostKept a ((s.noticeLeftMember.withdrawQueue .originated Item.isRelease).stopRepair.withMembership
      fun m => { m with leaveCause := some cause }) := h.noticeLeftMember.of_host rfl
  exact (released.foldl place).setStation

theorem clearTable (h : HostKept a s) : HostKept a s.clearTable := h.withMembership

theorem withdrawQueues (h : HostKept a s) : HostKept a s.withdrawQueues := h.of_host rfl

theorem leaveLine (h : HostKept a s) : HostKept a s.leaveLine := by
  have left : HostKept a (if s.station.participates then s.noticeLeftMember else s) := h.ifSo noticeLeftMember
  unfold State.leaveLine
  exact withLiu (withMembership (withBudget left.clearTable.resetDirectory.unsyncReplicas.emptyTransfer.withdrawQueues))

theorem enterDetached (h : HostKept a s) : HostKept a s.enterDetached := h.leaveLine.withMembership.setStation

theorem endReleases (h : HostKept a s) : HostKept a s.endReleases := by
  unfold State.endReleases
  split
  · split
    · exact h.enterJoining
    · exact h.place
    · exact h.place
  · exact h

theorem retryOpen {b : State} (h : HostKept a s) : HostKept a (s.retryOpen b) := by
  unfold State.retryOpen
  split
  · split
    · exact (h.attemptClaim.ite h.endCommand).ite h
    · exact h
  · exact h

theorem conclude {b : State} (h : HostKept a s) : HostKept a (s.conclude b) :=
  (h.ifSo fun h => h.withMembership.enterLeaving).retryOpen.endReleases

/-! ## The starts (R165 to R195) -/

theorem startInMember {start : Region → State} (h : HostKept a s) (starts : ∀ {r}, HostKept a (start r)) :
    HostKept a (s.startInMember c b start) := by
  unfold State.startInMember
  split
  · exact h.endAtStart.ite (h.endAtStart.ite starts)
  · exact h.endAtStart

theorem startOpen (h : HostKept a s) : HostKept a (s.startOpen c) :=
  h.startInMember (h.endAtStart.ite (h.endAtStart.ite h.attemptClaim))

theorem startClose (h : HostKept a s) : HostKept a (s.startClose c) := h.startInMember (h.place.proceed.ite h.endAtStart)

theorem startRenew (h : HostKept a s) : HostKept a (s.startRenew c) := h.startInMember (h.place.proceed.ite h.endAtStart)

theorem startWrite (h : HostKept a s) : HostKept a (s.startWrite c) :=
  h.startInMember (h.endAtStart.ite (h.endAtStart.ite h.place.proceed))

theorem startRepair (h : HostKept a s) : HostKept a (s.startRepair c) := by
  unfold State.startRepair
  split
  · exact h.endAtStart
  · split
    · exact h.returnLost.endAtStart
    all_goals exact h.endAtStart

theorem startCopy (h : HostKept a s) : HostKept a (s.startCopy c) := by
  unfold State.startCopy
  split
  · exact h.endAtStart
  · exact h.startInMember (h.endAtStart.ite (h.endAtStart.ite (h.endAtStart.ite h.placeChunk)))

theorem startFill (h : HostKept a s) : HostKept a (s.startFill c) :=
  h.startInMember (h.endAtStart.ite (h.endAtStart.ite h.placeChunk))

theorem examineGroup {next : Int} {unexamined : Nat} (h : HostKept a s) :
    HostKept a (s.examineGroup run next unexamined b) := by
  unfold State.examineGroup
  dsimp only
  split
  · exact h.endCommand
  · exact h.endCommand.ite h.proceed

theorem startScan (h : HostKept a s) : HostKept a (s.startScan c) := by
  unfold State.startScan
  split
  · exact h.endAtStart
  · exact h.endAtStart.ite (h.endAtStart.ite h.examineGroup)

end HostKept

/-- A queued record's row takes the head record of the command queue, where the unit is IDLE (R161, R165, R181). -/
theorem row_takes (q : QueuedCommand) (t : Time) :
    ∃ p f, p q = true ∧ (∀ s, exec (q.row t) s = whenPowered t (State.take p f) s) ∧ ∀ c s, HostKept s (f c s) := by
  unfold QueuedCommand.row
  split
  next cancelled => exact ⟨_, _, cancelled, fun _ => rfl, fun _ s => (HostKept.refl s).endAtStart⟩
  next live =>
    have isKind {k : Option CommandKind} (kind : kindOf q.record.kind = k) : QueuedCommand.isKind k q = true := by
      simp [QueuedCommand.isKind, live, kind]
    split
    next k kind =>
      match k, kind with
      | .open, kind => exact ⟨_, _, isKind kind, fun _ => rfl, fun _ s => (HostKept.refl s).startOpen⟩
      | .close, kind => exact ⟨_, _, isKind kind, fun _ => rfl, fun _ s => (HostKept.refl s).startClose⟩
      | .renew, kind => exact ⟨_, _, isKind kind, fun _ => rfl, fun _ s => (HostKept.refl s).startRenew⟩
      | .write, kind => exact ⟨_, _, isKind kind, fun _ => rfl, fun _ s => (HostKept.refl s).startWrite⟩
      | .repair, kind => exact ⟨_, _, isKind kind, fun _ => rfl, fun _ s => (HostKept.refl s).startRepair⟩
      | .copy, kind => exact ⟨_, _, isKind kind, fun _ => rfl, fun _ s => (HostKept.refl s).startCopy⟩
      | .fill, kind => exact ⟨_, _, isKind kind, fun _ => rfl, fun _ s => (HostKept.refl s).startFill⟩
      | .scan, kind => exact ⟨_, _, isKind kind, fun _ => rfl, fun _ s => (HostKept.refl s).startScan⟩
    next kind => exact ⟨_, _, isKind kind, fun _ => rfl, fun _ s => (HostKept.refl s).endAtStart⟩

theorem unit_posting_kept {c : Instr} {s s' : State} {p : Completion} (posting : s.unit = .posting p)
    (next : exec c s = .next s') (keeps : emptiesPostingSlot c = false) : s'.unit = .posting p := by
  by_cases changes : emptiesChangeSet c = false
  · obtain ⟨t, eq, evolves⟩ := Evolves.exec c s keeps changes
    obtain rfl : t = s' := by simpa [eq] using next
    exact evolves.posting p posting
  · cases c with
    | powerOn => cases keeps
    | nreset => cases keeps
    | takeChangesCompletionPoint t =>
      have unit (u : State) : u.completeChanges.unit = u.unit := by
        unfold State.completeChanges
        split <;> rfl
      obtain rfl : (if s.powered then (s.advance t).completeChanges else s) = s' := Host.Outcome.next.inj next
      split
      · exact (unit _).trans posting
      · exact posting
    | _ => exact absurd rfl changes

/-- Settles O29: no operation but a removal empties the slot, and only an IDLE unit takes a record. -/
theorem thePostingSlotIsKept : Obligations.ThePostingSlotIsKept := by
  intro t p s powered posting
  have busy : (s.advance t).unit ≠ .idle := by simp [posting]
  refine ⟨fun c s' next keeps => unit_posting_kept posting next keeps, fun q => ?_, fun room => ?_,
    fun c rest taken queue room => ?_⟩
  · obtain ⟨_, _, _, row, _⟩ := row_takes q t
    rw [row, whenPowered_next powered, State.take_of_busy busy]
    rfl
  · show whenPowered t State.movePosted s = _
    rw [whenPowered_next powered, State.movePosted_of_posting (s := s.advance t) posting,
      State.post_of_room (s := s.advance t) room]
    rfl
  · have moved : (s.advance t).completeCompletion = { s with
        now := max s.now t
        unit := .idle
        host := { s.host with transaction := .nothingToComplete, completionQueue := rest ++ [p] } } := by
      rw [State.completeCompletion_posting (s := s.advance t) posting taken, State.post_of_room]
      · simp [State.withHost, State.advance, queue]
      · simpa [queue] using room
    refine ⟨_, whenPowered_next powered, by rw [moved], by rw [moved], fun q waiting commands => ?_⟩
    obtain ⟨_, f, takes, row, kept⟩ := row_takes q t
    have idle : ((s.advance t).completeCompletion.advance t).unit = .idle := by rw [moved]; rfl
    have still : ((s.advance t).completeCompletion.advance t).host.commandQueue = q :: waiting := by rw [moved]; exact commands
    have on : (s.advance t).completeCompletion.powered = true := by rw [moved]; exact powered
    refine ⟨_, (row _).trans (whenPowered_next on), ?_⟩
    rw [State.take_of_idle idle still takes]
    exact (kept _ _).commands

end Sys2Proof.Machine
end

section
/-! PROOF. Reset, and the host's transactions (spec/10): what they answer, return and remove. -/

-- One declaration at a time: side by side, the case splits of these proofs want more threads than the memory limit allows.
set_option Elab.async false

namespace Sys2Proof.Machine

/-! ## Reset -/

theorem readByte_nil (a : Nat) : readByte [] a = 0 := rfl

/-- Settles O10. -/
theorem aResetLeavesTheInitialState : Obligations.AResetLeavesTheInitialState := by
  have entry (t : Time) (r : Region) : (State.resetAt t).entry r = Entry.unknown := State.entry_of_replicate rfl r
  have replica (t : Time) (r : Region) : (State.resetAt t).replica r = Replica.reset := by
    simp [State.replica, State.resetAt]
  have member (t : Time) (x : Station) : (State.resetAt t).member x = MemberEntry.absent := by
    simp [State.member, State.resetAt, Membership.reset]
  refine ⟨fun t => ?_, fun t s => ⟨rfl, fun powered => ?_, fun powered => ?_⟩⟩
  · refine ⟨rfl, rfl, member t, rfl, rfl, rfl, rfl, rfl, rfl, rfl, entry t, rfl, rfl, fun r => ?_, rfl, rfl, rfl, rfl, rfl,
      rfl, rfl, rfl, rfl, rfl, rfl, rfl, rfl, rfl, rfl, rfl, rfl, State.attnAsserted_resetAt t,
      by simp [State.linkByte, State.resetAt, HostLink.reset, flagBit, Config.commandQueueLimit],
      fun fell u bytes before => ?_⟩
    · rw [replica]
      exact ⟨rfl, rfl, rfl, fun a => readByte_nil a⟩
    · have ended : (State.resetAt t).endedByReset fell = true  := decide_eq_true before
      simp [State.hostRow, ended]
  · show Host.Outcome.next (if s.powered then s.restart t else s) = _
    rw [if_pos powered]
    rfl
  · exact ⟨_, whenPowered_next powered, rfl, rfl, rfl, rfl⟩

/-! ## The transactions that read -/

/-- Settles O13: each of these rows is one change of the transaction in progress, its answer and the read buffer. -/
theorem readingTransactionsChangeNothingElse : Obligations.ReadingTransactionsChangeNothingElse := by
  intro c s powered reads
  have done {t : Time} {f : State → State} {tr : Transaction} {a : Option Answer} {bs : List Byte}
      (begins : f (s.advance t) = (s.advance t).withHost fun h => { h with transaction := tr, answer := a, readBuffer := bs }) :
      ∃ s', whenPowered t f s = .next s' ∧
        s' = { s with
          now := s'.now
          host := { s.host with
            readBuffer := s'.host.readBuffer, transaction := s'.host.transaction, answer := s'.host.answer } } :=
    ⟨_, whenPowered_next powered, by rw [begins]; rfl⟩
  cases c with
  | status t =>
    obtain ⟨s', next, same⟩ := done (t := t) (f := State.takeStatus) rfl
    exact ⟨s', next, same, nofun, nofun⟩
  | getCompletion t =>
    have begins : ∃ tr bs, (s.advance t).takeCompletion =
        (s.advance t).withHost fun h => { h with transaction := tr, answer := none, readBuffer := bs } := by
      unfold State.takeCompletion
      split <;> exact ⟨_, _, rfl⟩
    obtain ⟨tr, bs, begins⟩ := begins
    obtain ⟨s', next, same⟩ := done begins
    exact ⟨s', next, same, nofun, nofun⟩
  | readImage t region offset length =>
    obtain ⟨s', next, same⟩ := done (t := t) (f := State.readImage region offset length) rfl
    exact ⟨s', next, same, nofun, nofun⟩
  | readRegion t region =>
    obtain ⟨s', next, same⟩ := done (t := t) (f := State.readRegion region) rfl
    exact ⟨s', next, same, nofun, nofun⟩
  | takeChanges t =>
    obtain ⟨s', next, same⟩ := done (t := t) (f := State.takeChanges) rfl
    exact ⟨s', next, same, nofun, nofun⟩
  | readCounters t clear =>
    obtain ⟨s', next, same⟩ := done (t := t) (f := State.takeCounters clear) rfl
    exact ⟨s', next, same, nofun, nofun⟩
  | unassignedTransaction t code =>
    exact ⟨_, whenPowered_next (f := fun s => s.begin .noEffect none) powered, rfl, nofun, fun _ _ _ _ => rfl⟩
  | transactionEnd t =>
    exact ⟨_, whenPowered_next (f := fun s => s.begin .none none) powered, rfl, fun _ _ => ⟨rfl, rfl, fun _ => rfl⟩, nofun⟩
  | _ => cases reads

/-! ## CONFIGURE (R99, R199) -/

/-- The entry into LISTENING in full (R98, R100). -/
theorem State.enterListening_eq (s : State) :
    s.enterListening =
      ((s.withMembership fun _ => s.listening).withLiu fun l => { l with failures := 0 }).setStateChanged := by
  unfold State.enterListening
  rw [State.setOwnEntry_eq]
  rfl

/-- The own entry alone changes (R103). -/
theorem State.ownTable_absent {s : State} {own : Station} (self : s.self = some own) :
    s.ownTable .absent = s.membership.table.set own MemberEntry.absent := by
  simp [State.ownTable, self]

/-- A station that begins to listen is ABSENT in its own table. -/
theorem State.member_enterListening {s : State} {own : Station} (self : s.self = some own) (x : Station) :
    s.enterListening.member x = if x = own then .absent else s.member x := by
  rw [State.enterListening_eq]
  change (s.ownTable .absent)[x] = _
  rw [State.ownTable_absent self]
  rcases eq_or_ne x own with rfl | ne
  · simp
  · have away : own.val ≠ x.val := fun eq => ne (Fin.ext eq.symm)
    simp [ne, away, State.member]

/-- Settles O11: the four branches of the table, and the entry into LISTENING. -/
theorem configureAnswersByTheTable : Obligations.ConfigureAnswersByTheTable := by
  intro t station lease limit mask s powered
  refine ⟨_, whenPowered_next powered, fun locked => ?_, fun unconfigured far => ?_, fun unconfigured near far => ?_,
    fun unconfigured near short => ?_⟩
  · have answer : (s.advance t).configuration station lease limit mask = (.locked, none) := by
      have locked' : (s.advance t).station ≠ .unconfigured := locked
      simp [State.configuration, locked']
    simp only [State.configure, answer]
    rfl
  · have answer : (s.advance t).configuration station lease limit mask = (.badStation, none) := by
      have unconfigured' : (s.advance t).station = .unconfigured := unconfigured
      simp [State.configuration, unconfigured', show ¬ station.toNat < 16 by omega]
    simp only [State.configure, answer]
    rfl
  · have answer : (s.advance t).configuration station lease limit mask = (.badLease, none) := by
      have unconfigured' : (s.advance t).station = .unconfigured := unconfigured
      simp [State.configuration, unconfigured', show station.toNat < 16 by omega, show ¬ lease.toNat < 51 by omega]
    simp only [State.configure, answer]
    rfl
  · have answer := State.configuration_ok (s := s.advance t) (limit := limit) (mask := mask) unconfigured
      (Nat.lt_succ_of_le near) (Nat.lt_succ_of_le short)
    have table := State.member_enterListening
      (s := ((s.advance t).beginAnswered .ok).writeConfiguration ⟨⟨station.toNat, Nat.lt_succ_of_le near⟩,
        ⟨lease.toNat, Nat.lt_succ_of_le short⟩, limit, mask.getLsbD 0, mask.getLsbD 1⟩) rfl
    simp only [State.configure, answer]
    refine ⟨rfl, ⟨_, rfl, rfl, rfl, rfl, rfl, rfl, ?_, fun x ne => ?_⟩, ?_⟩
    · exact (table _).trans (if_pos rfl)
    · exact (table x).trans (if_neg ne)
    · rw [State.enterListening_eq]
      exact ⟨rfl, rfl, rfl, rfl, rfl, rfl, rfl, rfl, rfl, rfl, rfl, rfl, rfl, rfl, rfl⟩

end Sys2Proof.Machine
end

section
/-! PROOF. The host's transactions: STATUS, the queues, the reads, the change set and the counters (spec/10), and the open
wait deadline (R171). -/

-- One declaration at a time: side by side, the case splits of these proofs want more threads than the memory limit allows.
set_option Elab.async false

namespace Sys2Proof.Machine

theorem event_concluded {t : Time} {f : State → State} {s : State} (powered : s.powered = true) :
    event t f s = .next ((f (s.advance t)).conclude (s.advance t)) := whenPowered_next powered

/-! ## STATUS (R200) -/

theorem State.getLsbD_memberSet (s : State) (x : Station) :
    s.memberSet.getLsbD x.val = ((s.member x).presence == .member) := by
  simp [State.memberSet]

theorem word16_of_bytes (v : BitVec 16) : word16 (v.extractLsb' 8 8) (v.extractLsb' 0 8) = v := word16_eq_of_bytes16 rfl

theorem flagBit_zero (b : Bool) : flagBit b 0 = if b then 1 else 0 := by cases b <;> rfl

theorem State.completeStatus_eq {s : State} {again : Bool} (taken : s.host.transaction = .statusTaken again) :
    s.completeStatus =
      s.withHost fun h => { h with transaction := .nothingToComplete, stateChanged := h.stateChanged && again } := by
  simp [State.completeStatus, taken]

/-- A listen expiry during a STATUS sets the state-changed flag again (R98, R101, R102, R200). -/
theorem listenTimerExpiry_toldAgain {t d : Time} {again : Bool} {s : State} (powered : s.powered = true)
    (taken : s.host.transaction = .statusTaken again) (timer : s.membership.listenTimer = some d) (due : d ≤ max s.now t) :
    ∃ s', exec (.listenTimerExpiry t) s = .next s' ∧ s'.toldAgain ∧ s'.powered = true := by
  have status : ∃ again, (s.advance t).host.transaction = .statusTaken again := ⟨again, taken⟩
  have expires : (s.advance t).listenTimerExpires =
      if s.membership.memberHeard then (s.advance t).enterJoining else (s.advance t).aloneStart := by
    have timer' : (s.advance t).membership.listenTimer = some d := timer
    have due' : d ≤ (s.advance t).now := due
    simp only [State.listenTimerExpires, timer', due', if_true]
    rfl
  have told : (s.advance t).listenTimerExpires.toldAgain ∧ (s.advance t).listenTimerExpires.powered = s.powered := by
    rw [expires]
    split
    · exact ⟨HostKept.toldAgain_enterJoining status, (HostKept.refl _).enterJoining.powered⟩
    · exact ⟨HostKept.toldAgain_aloneStart status, (HostKept.refl _).aloneStart.powered⟩
  have concluded : HostKept _ ((s.advance t).listenTimerExpires.conclude (s.advance t)) := (HostKept.refl _).conclude
  exact ⟨_, event_concluded powered, concluded.told told.1, concluded.powered.trans (told.2.trans powered)⟩

/-- Settles O12. -/
theorem statusIsReadAndItsFlagCleared : Obligations.StatusIsReadAndItsFlagCleared := by
  refine ⟨fun t s powered => ?_, fun t again s powered taken => ?_, fun t₁ t₂ d again s powered taken timer due => ?_⟩
  · refine ⟨_, (s.advance t).memberSet.extractLsb' 8 8, (s.advance t).memberSet.extractLsb' 0 8, whenPowered_next powered, ?_,
      fun x => ?_, rfl, rfl⟩
    · show (s.advance t).statusBytes = _
      simp only [State.statusBytes, bytes16, flagBit_zero]
      rfl
    · rw [word16_of_bytes, State.getLsbD_memberSet]
      exact beq_iff_eq
  · refine (whenPowered_next powered).trans ?_
    rw [State.completeStatus_eq (s := s.advance t) taken]
    rfl
  · obtain ⟨s₁, next, told, on⟩ := listenTimerExpiry_toldAgain powered taken timer due
    refine ⟨s₁, _, next, whenPowered_next on, ?_⟩
    rw [State.completeStatus_eq (s := s₁.advance t₂) told.2]
    simpa using told.1

/-! ## The command queue and the completion queue (R202, R203) -/

theorem word16_toNat (hi lo : Byte) : (word16 hi lo).toNat = 256 * hi.toNat + lo.toNat := by
  rw [word16, BitVec.toNat_append, Nat.shiftLeft_eq, ← Nat.shiftLeft_eq, ← Nat.shiftLeft_add_eq_or_of_lt lo.isLt]
  omega

/-- The bytes of a whole record, its data included (10.7). -/
theorem parseRecord_of_complete {bs : List Byte} (complete : recordComplete bs = true) :
    ∃ c, parseRecord bs = some c ∧ c.tag = bs.getD 0 0 ∧ c.kind = bs.getD 1 0 ∧ c.region = bs.getD 2 0 ∧
      c.offset = bs.getD 3 0 ∧ c.length = word16 (bs.getD 4 0) (bs.getD 5 0) ∧ c.flags = bs.getD 6 0 ∧
      c.secondRegion = bs.getD 7 0 ∧ c.secondOffset = bs.getD 8 0 ∧ c.value = bs.getD 9 0 ∧ c.matchMask = bs.getD 10 0 ∧
      c.mask = word16 (bs.getD 11 0) (bs.getD 12 0) ++ word16 (bs.getD 13 0) (bs.getD 14 0) ∧ c.data = bs.drop 15 := by
  simp only [recordComplete, Bool.and_eq_true, decide_eq_true_eq, beq_iff_eq] at complete
  obtain ⟨-, length⟩ := complete
  refine ⟨_, if_pos ?_, rfl, rfl, rfl, rfl, rfl, rfl, rfl, rfl, rfl, rfl, rfl, ?_⟩
  · rw [word16_toNat]
    exact length.ge
  · rw [word16_toNat, List.take_of_length_le]
    simp only [List.length_drop]
    omega

theorem parseRecord_of_short {bs : List Byte}
    (short : bs.length < 15 + recordDataLength (bs.getD 1 0) (256 * (bs.getD 4 0).toNat + (bs.getD 5 0).toNat)) :
    parseRecord bs = none := by
  refine if_neg ?_
  rw [word16_toNat]
  omega

theorem State.putCommand_room {s : State} {bs : List Byte} {c : CommandRecord} (parsed : parseRecord bs = some c)
    (room : s.host.commandQueue.length < 8) :
    s.putCommand bs = (s.beginAnswered .ok).withHost fun h =>
      { h with commandQueue := h.commandQueue ++ [{ record := c, cancelled := false }] } := by
  simp only [State.putCommand, parsed]
  exact if_pos room

theorem State.putCommand_full {s : State} {bs : List Byte} {c : CommandRecord} (parsed : parseRecord bs = some c)
    (full : 8 ≤ s.host.commandQueue.length) : s.putCommand bs = s.beginAnswered .full := by
  simp only [State.putCommand, parsed]
  exact if_neg (Nat.not_lt.2 full)

theorem State.putCommand_short {s : State} {bs : List Byte} (short : parseRecord bs = none) :
    s.putCommand bs = s.begin .noEffect none := by
  simp only [State.putCommand, short]

/-- Only the command queue, the transaction and its answer change at a PUT-COMMAND (R202). -/
theorem State.putCommand_frame (s : State) (bs : List Byte) :
    (s.putCommand bs).unit = s.unit ∧ (s.putCommand bs).liu = s.liu ∧
      (s.putCommand bs).host.completionQueue = s.host.completionQueue := by
  unfold State.putCommand
  split
  · exact ⟨rfl, rfl, rfl⟩
  · split <;> exact ⟨rfl, rfl, rfl⟩

theorem State.takeCompletion_empty {s : State} (empty : s.host.completionQueue = []) :
    s.takeCompletion = s.beginRead .nothingToComplete [Answer.empty.code] := by
  simp only [State.takeCompletion, empty]

theorem State.takeCompletion_cons {s : State} {c : Completion} {rest : List Completion}
    (queue : s.host.completionQueue = c :: rest) :
    s.takeCompletion = s.beginRead .completionTaken (Answer.ok.code :: c.bytes) := by
  simp only [State.takeCompletion, queue]

theorem State.takeCompletion_completionQueue (s : State) :
    s.takeCompletion.host.completionQueue = s.host.completionQueue := by
  unfold State.takeCompletion
  split <;> rfl

theorem State.movePosted_of_not_posting {s : State} (free : ∀ p, s.unit ≠ .posting p) : s.movePosted = s := by
  unfold State.movePosted
  split
  next p posting => exact absurd posting (free p)
  all_goals rfl

/-- The removal at the completion point of a GET-COMPLETION, by what the command unit holds (R163, R203). -/
theorem State.completeCompletion_taken {s : State} (taken : s.host.transaction = .completionTaken) :
    ((∀ p, s.unit ≠ .posting p) →
      s.completeCompletion.host.completionQueue = s.host.completionQueue.tail ∧ s.completeCompletion.unit = s.unit) ∧
    (∀ p, s.unit = .posting p → s.host.completionQueue.tail.length < 16 →
      s.completeCompletion.host.completionQueue = s.host.completionQueue.tail ++ [p] ∧ s.completeCompletion.unit = .idle) := by
  let removed := s.withHost fun h => { h with transaction := .nothingToComplete, completionQueue := h.completionQueue.tail }
  have moved : s.completeCompletion = removed.movePosted := by simp only [State.completeCompletion, taken, removed]
  rw [moved]
  refine ⟨fun free => ?_, fun p posting room => ?_⟩
  · rw [State.movePosted_of_not_posting (s := removed) free]
    exact ⟨rfl, rfl⟩
  · rw [State.movePosted_of_posting (s := removed) posting, State.post_of_room room]
    exact ⟨rfl, rfl⟩

/-- Settles O14. -/
theorem theHostQueuesAreFirstInFirstOut : Obligations.TheHostQueuesAreFirstInFirstOut := by
  refine ⟨fun t bs s powered => ?_, fun t₁ t₂ s powered => ?_⟩
  · obtain ⟨unit, liu, completions⟩ := (s.advance t).putCommand_frame bs
    refine ⟨_, whenPowered_next powered, unit, liu, completions, fun complete room => ?_, fun complete full => ?_, fun short => ?_⟩
    · obtain ⟨c, parsed, fields⟩ := parseRecord_of_complete complete
      rw [State.putCommand_room (s := s.advance t) parsed room]
      exact ⟨rfl, c, rfl, fields⟩
    · obtain ⟨c, parsed, -⟩ := parseRecord_of_complete complete
      rw [State.putCommand_full (s := s.advance t) parsed full]
      exact ⟨rfl, rfl⟩
    · rw [State.putCommand_short (s := s.advance t) (parseRecord_of_short short)]
      exact ⟨rfl, rfl⟩
  · have on : (s.advance t₁).takeCompletion.powered = true := by
      unfold State.takeCompletion
      split <;> exact powered
    refine ⟨_, _, whenPowered_next powered, whenPowered_next on, (s.advance t₁).takeCompletion_completionQueue,
      fun empty => ?_, fun c rest queue => ?_⟩
    · rw [State.takeCompletion_empty (s := s.advance t₁) empty]
      exact ⟨rfl, empty, rfl⟩
    · rw [State.takeCompletion_cons (s := s.advance t₁) queue]
      have removed : s.host.completionQueue.tail = rest := by rw [queue, List.tail_cons]
      obtain ⟨whenFree, whenPosting⟩ := State.completeCompletion_taken
        (s := ((s.advance t₁).beginRead .completionTaken (Answer.ok.code :: c.bytes)).advance t₂) rfl
      rw [← removed]
      exact ⟨rfl, rfl, whenFree, whenPosting⟩

/-! ## The reads (R207, R208) -/

/-- The bytes that a read transaction gives on SDO from its taking point on (R198). -/
theorem State.sdoByte_beginRead (s : State) (bs : List Byte) (i : Nat) :
    ((s.beginRead .nothingToComplete bs).sdoByte i).getD 1 = bs.getD i 0 := rfl

/-- Bytes that are all 0 past the third read as 0 there. -/
theorem getD_refused (i : Nat) : ([0, 0, 255] : List Byte).getD (3 + i) 0 = 0 := by simp

theorem getD_zeros (n i : Nat) : (List.replicate n (0 : Byte)).getD i 0 = 0 := by
  rw [List.getD_eq_getElem?_getD, List.getElem?_replicate]
  split <;> rfl

theorem State.imageBytes_refused {s : State} {region offset : Byte} {n : Nat}
    (out : regionOf region = none ∨ n = 0 ∨ 256 < n ∨ 256 < offset.toNat + n) :
    s.imageBytes region offset n = [0, 0, 255] := by
  unfold State.imageBytes
  split
  next r some =>
    refine if_neg fun ⟨one, most, fits⟩ => ?_
    rcases out with none | zero | more | beyond
    · simp [some] at none
    all_goals omega
  next => rfl

theorem State.imageBytes_in {s : State} {region offset : Byte} {n : Nat} {r : Region} (some : regionOf region = some r)
    (one : 1 ≤ n) (most : n ≤ 256) (fits : offset.toNat + n ≤ 256) :
    s.imageBytes region offset n =
      bytes16 (s.replica r).version ++ [(s.replica r).condition.code] ++ readBytes (s.replica r).content offset.toNat n := by
  simp only [State.imageBytes, some]
  exact if_pos ⟨one, most, fits⟩

/-- The yes/no fields of byte 5 of a READ-REGION are its bits (10.7). -/
theorem flagBits_getLsbD (a b c d : Bool) :
    let byte := flagBit a 0 ||| flagBit b 1 ||| flagBit c 2 ||| flagBit d 3
    byte.getLsbD 0 = a ∧ byte.getLsbD 1 = b ∧ byte.getLsbD 2 = c ∧ byte.getLsbD 3 = d := by
  revert a b c d
  decide

/-- A directory state shows in three bytes (10.7). -/
theorem EntryState.bytes_eq (e : EntryState) : ∃ a b c, e.bytes = [a, b, c] := by
  cases e <;> exact ⟨_, _, _, rfl⟩

/-- The last owner's byte of a READ-REGION (10.7). -/
def ownerByte : Option Station → Byte
  | some x => BitVec.ofNat 8 x.val
  | none => 255

/-- The ten bytes of a READ-REGION, one by one (10.7). -/
theorem State.regionBytes_eq (s : State) (r : Region) :
    ∃ a b c, (s.entry r).state.bytes = [a, b, c] ∧ s.regionBytes r =
      [a, b, c, ownerByte (s.entry r).lastOwner, (s.entry r).state.reasonByte,
        flagBit (s.entry r).state.isLapsed 0 ||| flagBit (s.entry r).overheard.isSome 1 ||| flagBit (s.inReception r) 2 |||
          flagBit (s.transfer.repairList.contains r) 3,
        (s.replica r).condition.code, (s.replica r).version.extractLsb' 8 8, (s.replica r).version.extractLsb' 0 8,
        BitVec.ofNat 8 (s.replica r).attempts] := by
  obtain ⟨a, b, c, state⟩ := EntryState.bytes_eq (s.entry r).state
  refine ⟨a, b, c, state, ?_⟩
  simp only [State.regionBytes, state]
  cases (s.entry r).lastOwner <;> rfl

/-- Settles O15. -/
theorem readsGiveTheImageAndTheRegion : Obligations.ReadsGiveTheImageAndTheRegion := by
  refine ⟨fun t region offset length s powered => ?_, fun t region s powered => ?_⟩
  · refine ⟨_, whenPowered_next powered, fun r some one most fits => ?_, fun out => ?_⟩
    · have bytes := State.imageBytes_in (s := s.advance t) some one most fits
      simp only [State.readImage, bytes, State.sdoByte_beginRead]
      refine ⟨?_, word16_of_bytes _, rfl, fun i lt => ?_⟩
      · exact List.length_append.trans (congrArg (3 + ·) (readBytes_length _ _ _))
      · rw [List.getD_append_right _ _ _ _ (Nat.le_add_right 3 i)]
        show (readBytes _ _ _).getD (3 + i - 3) 0 = _
        rw [Nat.add_sub_cancel_left]
        exact readBytes_getD _ lt
    · have bytes := State.imageBytes_refused (s := s.advance t) out
      simp only [State.readImage, bytes, State.sdoByte_beginRead]
      exact ⟨rfl, rfl, rfl, getD_refused⟩
  · refine ⟨_, whenPowered_next powered, fun none => ?_, fun r some => ?_⟩
    · simp only [State.readRegion, none, State.sdoByte_beginRead]
      refine ⟨rfl, fun i pos => ?_⟩
      rw [← List.singleton_append, List.getD_append_right _ _ _ _ pos]
      exact getD_zeros _ _
    · simp only [State.readRegion, some, State.sdoByte_beginRead]
      obtain ⟨a, b, c, state, bytes⟩ := (s.advance t).regionBytes_eq r
      obtain ⟨lapsed, overheard, reception, repair⟩ := flagBits_getLsbD (s.entry r).state.isLapsed
        (s.entry r).overheard.isSome (s.inReception r) (s.transfer.repairList.contains r)
      rw [bytes]
      refine ⟨rfl, state, fun x owner => ?_, fun none => ?_, rfl, lapsed, overheard, reception, repair, rfl, word16_of_bytes _, rfl⟩
      · exact congrArg ownerByte owner
      · exact congrArg ownerByte none

/-! ## The change set (R205, R206) -/

theorem State.mem_addChanges {s : State} {rs : List Region} {r : Region} :
    r ∈ (s.addChanges rs).host.changeSet ↔ r ∈ s.host.changeSet ∨ r ∈ rs := by
  induction rs generalizing s with
  | nil => simp [State.addChanges]
  | cons x rest ih =>
    show r ∈ ((s.addChange x).addChanges rest).host.changeSet ↔ _
    rw [ih, List.mem_cons]
    show r ∈ insertAscending x s.host.changeSet ∨ _ ↔ _
    rw [mem_insertAscending]
    tauto

/-- What is added during a TAKE-CHANGES is marked as added again where it was taken (R206). -/
theorem State.addChanges_taken {s : State} {taken again : List Region} (rs : List Region)
    (open_ : s.host.transaction = .changesTaken taken again) :
    ∃ again', (s.addChanges rs).host.transaction = .changesTaken taken again' ∧
      ∀ r, r ∈ again' ↔ r ∈ again ∨ (r ∈ taken ∧ r ∈ rs) := by
  induction rs generalizing s again with
  | nil => exact ⟨again, open_, by simp⟩
  | cons x rest ih =>
    by_cases was : x ∈ taken
    · have marked : (s.addChange x).host.transaction = .changesTaken taken (insertAscending x again) := by
        simp [State.addChange, Transaction.markAgain, open_, was]
      obtain ⟨again', later, members⟩ := ih marked
      refine ⟨again', later, fun r => ?_⟩
      rw [members, mem_insertAscending, List.mem_cons]
      constructor
      · rintro ((rfl | old) | ⟨there, more⟩)
        · exact .inr ⟨was, .inl rfl⟩
        · exact .inl old
        · exact .inr ⟨there, .inr more⟩
      · rintro (old | ⟨there, rfl | more⟩)
        · exact .inl (.inr old)
        · exact .inl (.inl rfl)
        · exact .inr ⟨there, more⟩
    · have stands : (s.addChange x).host.transaction = .changesTaken taken again := by
        simp [State.addChange, Transaction.markAgain, open_, was]
      obtain ⟨again', later, members⟩ := ih stands
      refine ⟨again', later, fun r => ?_⟩
      rw [members, List.mem_cons]
      constructor
      · rintro (old | ⟨there, more⟩)
        · exact .inl old
        · exact .inr ⟨there, .inr more⟩
      · rintro (old | ⟨there, rfl | more⟩)
        · exact .inl old
        · exact absurd there was
        · exact .inr ⟨there, more⟩

theorem State.addChanges_powered (s : State) (rs : List Region) : (s.addChanges rs).powered = s.powered := by
  rw [State.addChanges_eq]
  rfl

theorem State.completeChanges_taken {s : State} {taken again : List Region}
    (open_ : s.host.transaction = .changesTaken taken again) :
    s.completeChanges.host.changeSet = s.host.changeSet.filter fun r => !(taken.contains r && !again.contains r) := by
  simp only [State.completeChanges, open_]
  rfl

theorem pairwise_regionBytes {rs : List Region} (ascending : rs.Pairwise (· < ·)) :
    (rs.map fun r => (BitVec.ofNat 8 r.val : Byte)).Pairwise (· < ·) := by
  refine List.pairwise_map.2 (ascending.imp fun {a b} lt => ?_)
  have : a.val < b.val := lt
  simp only [BitVec.lt_def, BitVec.toNat_ofNat]
  omega

/-- Settles O16. -/
theorem takeChangesLosesNoChange : Obligations.TakeChangesLosesNoChange := by
  intro t₁ t₂ t₃ added s powered ascending
  let s₁ := (s.advance t₁).takeChanges
  have on : (s₁.addChanges added).powered = true := (State.addChanges_powered _ _).trans powered
  obtain ⟨again, open_, members⟩ := State.addChanges_taken (s := s₁) added rfl
  have few : s.host.changeSet.length ≤ 64 := by
    have distinct : s.host.changeSet.Nodup := ascending.imp fun lt => ne_of_lt lt
    simpa using distinct.length_le_card
  refine ⟨s₁, _, _, _, whenPowered_next powered, rfl, pairwise_regionBytes ascending, few, rfl, rfl, whenPowered_next on,
    fun r => ?_, whenPowered_next (f := fun s => s.begin .none none) on, whenPowered_next on, fun r => ?_⟩
  · rw [State.completeChanges_taken (s := (s₁.addChanges added).advance t₂) open_]
    have stands : r ∈ (s₁.addChanges added).host.changeSet ↔ r ∈ s.host.changeSet ∨ r ∈ added := State.mem_addChanges
    have taken : r ∈ again ↔ r ∈ s.host.changeSet ∧ r ∈ added := by simpa using members r
    refine List.mem_filter.trans ((and_congr_left' stands).trans ?_)
    have left : (!(s.host.changeSet.contains r && !again.contains r)) = true ↔ (r ∈ s.host.changeSet → r ∈ again) := by
      by_cases was : r ∈ s.host.changeSet <;> simp [was]
    refine (and_congr_right' left).trans ?_
    rw [taken]
    tauto
  · exact State.mem_addChanges

/-! ## The counters (R209) -/

theorem raiseCounter_sub (v : BitVec 16) : raiseCounter v - v = if v = 65535 then 0 else 1 := by
  unfold raiseCounter
  split
  · exact BitVec.sub_self v
  · rw [BitVec.add_comm, BitVec.add_sub_cancel]

/-- Settles O18. -/
theorem readCountersKeepsLaterRaises : Obligations.ReadCountersKeepsLaterRaises := by
  refine ⟨fun t₁ t₂ clear present s powered => ?_, raiseCounter_sub⟩
  refine ⟨_, _, whenPowered_next powered, rfl, rfl, whenPowered_next powered, fun zero => ?_, fun nonzero => ?_⟩
  · simp only [State.takeCounters, zero, if_true]
    rfl
  · simp only [State.takeCounters, nonzero, if_false]
    rfl

/-! ## The open wait deadline (R171) -/

/-- The record of a command's ending (R162). -/
def Running.completion (run : Running) (status : Status) (reason : Reason) (version : Version) (count : Nat) (position : Int)
    (found exhausted released : Bool) : Completion :=
  { tag := run.record.tag, kind := run.record.kind, status := status, reason := reason, version := version, count := count,
    position := position, found := found, exhausted := exhausted, disturbed := run.progress.disturbed, released := released }

/-- A command ends while the completion queue has room (R161, R162). -/
theorem State.endCommand_of_room {s : State} {run : Running} {status : Status} {reason : Reason} {v : Version} {n : Nat}
    {p : Int} {found exhausted released : Bool} (room : s.host.completionQueue.length < 16) :
    s.endCommand run status reason v n p found exhausted released =
      { s with
        unit := .idle
        host := { s.host with
          completionQueue := s.host.completionQueue ++
            [run.completion status reason v n p found exhausted released] } } := State.post_of_room room

/-- Settles O30. -/
theorem openWaitDeadlineEndsAWaitingOpen : Obligations.OpenWaitDeadlineEndsAWaitingOpen := by
  intro t d run s powered executing
  have running : (s.advance t).running = some run := State.running_iff.2 executing
  refine ⟨fun last waiting due room => ?_, fun before queued due => ?_, fun pending due => ?_, fun last waiting early => ?_⟩
  · have due' : d ≤ (s.advance t).now := due
    have ends : (s.advance t).expireOpenWait = (s.advance t).endCommand run .waitExpired last := by
      simp only [State.expireOpenWait, running, waiting, due', if_true]
    have posted := ends.trans (State.endCommand_of_room room)
    refine ⟨_, run.completion .waitExpired last (s.replica run.region).version run.progress.bytesDone 0 false false false,
      (whenPowered_next powered).trans (congrArg _ posted), rfl, rfl, rfl, rfl, rfl, rfl, rfl, rfl⟩
  · have due' : d ≤ (s.advance t).now := due
    refine (whenPowered_next powered).trans ?_
    simp only [State.expireOpenWait, running, queued, due', if_true]
    rfl
  · have due' : d ≤ (s.advance t).now := due
    refine (whenPowered_next powered).trans ?_
    simp only [State.expireOpenWait, running, pending, due', if_true]
    rfl
  · have early' : ¬ d ≤ (s.advance t).now := Nat.not_le.2 early
    refine (whenPowered_next powered).trans ?_
    simp only [State.expireOpenWait, running, waiting, early', if_false]
    rfl

end Sys2Proof.Machine
end

section
/-! SUPPORT. What the command unit can change beside its own state: the originated queue, the claim number and the completion
queue; with it, what the conclusion of an event leaves of the LIU and the host link (R54, R112, R170). -/

-- One declaration at a time: side by side, the case splits of these proofs want more threads than the memory limit allows.
set_option Elab.async false

namespace Sys2Proof.Machine

/-! ## The command unit's reach -/

/-- The LIU beside the originated queue. -/
def Liu.line (l : Liu) : Liu := { l with originated := [], originatedWaiting := [] }

/-- The host link beside the completion queue. -/
def HostLink.flags (h : HostLink) : HostLink := { h with completionQueue := [] }

/-- `t` differs from `s` in the originated queue, the claim number, the command unit and the completion queue alone. -/
structure CommandOnly (s t : State) : Prop extends LineOnly s t where
  line : t.liu.line = s.liu.line
  flags : t.host.flags = s.host.flags

namespace CommandOnly

variable {a s t : State} {i : Item} {r : Region} {run : Running} {b : Bool} {p : Item → Bool}

theorem refl (s : State) : CommandOnly s s := ⟨.refl s, rfl, rfl⟩

theorem trans (h : CommandOnly a s) (g : CommandOnly s t) : CommandOnly a t :=
  ⟨h.toLineOnly.trans g.toLineOnly, g.line.trans h.line, g.flags.trans h.flags⟩

theorem lineField {α : Type} (h : CommandOnly s t) (f : Liu → α) : f t.liu.line = f s.liu.line := congrArg f h.line

theorem flagsField {α : Type} (h : CommandOnly s t) (f : HostLink → α) : f t.host.flags = f s.host.flags := congrArg f h.flags

theorem reply (h : CommandOnly s t) : t.liu.reply = s.liu.reply := h.lineField Liu.reply
theorem replyWaiting (h : CommandOnly s t) : t.liu.replyWaiting = s.liu.replyWaiting := h.lineField Liu.replyWaiting
theorem transmitter (h : CommandOnly s t) : t.liu.transmitter = s.liu.transmitter := h.lineField Liu.transmitter
theorem collisionEnd (h : CommandOnly s t) : t.liu.collisionEnd = s.liu.collisionEnd := h.lineField Liu.collisionEnd
theorem activityEnd (h : CommandOnly s t) : t.liu.activityEnd = s.liu.activityEnd := h.lineField Liu.activityEnd
theorem lastSender (h : CommandOnly s t) : t.liu.lastSender = s.liu.lastSender := h.lineField Liu.lastSender
theorem fallback (h : CommandOnly s t) : t.liu.fallback = s.liu.fallback := h.lineField Liu.fallback
theorem failures (h : CommandOnly s t) : t.liu.failures = s.liu.failures := h.lineField Liu.failures
theorem commandQueue (h : CommandOnly s t) : t.host.commandQueue = s.host.commandQueue := h.flagsField HostLink.commandQueue
theorem changeSet (h : CommandOnly s t) : t.host.changeSet = s.host.changeSet := h.flagsField HostLink.changeSet
theorem stateChanged (h : CommandOnly s t) : t.host.stateChanged = s.host.stateChanged := h.flagsField HostLink.stateChanged
theorem counters (h : CommandOnly s t) : t.host.counters = s.host.counters := h.flagsField HostLink.counters
theorem answer (h : CommandOnly s t) : t.host.answer = s.host.answer := h.flagsField HostLink.answer

theorem ite {q : Prop} {_ : Decidable q} (h : CommandOnly a s) (g : CommandOnly a t) : CommandOnly a (if q then s else t) := by
  split
  · exact h
  · exact g

theorem ifSo {q : Prop} {_ : Decidable q} (h : CommandOnly a s) (step : CommandOnly a s → CommandOnly a t) :
    CommandOnly a (if q then t else s) := (step h).ite h

theorem setUnit {u : CommandUnit} (h : CommandOnly a s) : CommandOnly a { s with unit := u } :=
  h.trans ⟨s.unit_lineOnly u, rfl, rfl⟩

theorem proceed {q : Progress} (h : CommandOnly a s) : CommandOnly a (s.proceed run q) := h.setUnit

theorem cancel (h : CommandOnly a s) : CommandOnly a (s.cancel .originated p) :=
  h.trans ⟨s.cancel_lineOnly _ _, rfl, rfl⟩

theorem append (h : CommandOnly a s) : CommandOnly a (s.append .originated i) := by
  refine h.trans ⟨s.append_lineOnly _ _, ?_, by rw [State.append_host]⟩
  unfold State.append
  split <;> rfl

theorem placeWaiting (h : CommandOnly a s) : CommandOnly a (s.placeWaiting .originated) := by
  unfold State.placeWaiting
  split
  · exact h
  · refine (append ?_).ite h
    exact h.trans ⟨s.withLiu_lineOnly _, rfl, rfl⟩

theorem placeAllWaiting (h : CommandOnly a s) : CommandOnly a (s.placeAllWaiting .originated) := by
  unfold State.placeAllWaiting
  generalize s.liu.waiting .originated = items
  induction items generalizing s with
  | nil => exact h
  | cons _ rest ih => exact ih h.placeWaiting

theorem place (h : CommandOnly a s) : CommandOnly a (s.place .originated i) :=
  h.placeAllWaiting.append.ite (h.placeAllWaiting.trans ⟨State.withLiu_lineOnly _ _, rfl, rfl⟩)

theorem post {c : Completion} (h : CommandOnly a s) : CommandOnly a (s.post c) := by
  refine h.trans ⟨s.post_lineOnly c, ?_, ?_⟩ <;> unfold State.post <;> split <;> rfl

theorem endCommand {status : Status} {reason : Reason} {v : Version} {n : Nat} {q : Int} {found exhausted released : Bool}
    (h : CommandOnly a s) : CommandOnly a (s.endCommand run status reason v n q found exhausted released) := h.post

theorem cancelThenEnd {status : Status} {reason : Reason} {v : Version} {n : Nat} {q : Int} {found exhausted released : Bool}
    (h : CommandOnly a s) :
    CommandOnly a ((s.cancelCommandFrame run).endCommand run status reason v n q found exhausted released) :=
  CommandOnly.endCommand h.cancel

theorem openSetback {clock : WaitClock} {reason : Reason} (h : CommandOnly a s) :
    CommandOnly a (s.openSetback run clock reason) := by
  refine h.endCommand.ite ?_
  cases clock with
  | noWait => exact h.endCommand
  | till _ => exact h.proceed
  | expired => exact h.endCommand

theorem attemptClaim {clock : WaitClock} {before : Reason} (h : CommandOnly a s) :
    CommandOnly a (s.attemptClaim run clock before) := h.openSetback.ite (h.openSetback.ite h.place.proceed)

theorem placeChunk {source : Option Region} {n : Nat} (h : CommandOnly a s) : CommandOnly a (s.placeChunk run source n b) :=
  h.place.proceed

theorem retryOpen {before : State} (h : CommandOnly a s) : CommandOnly a (s.retryOpen before) := by
  unfold State.retryOpen
  split
  · split
    · exact (h.attemptClaim.ite h.endCommand).ite h
    · exact h
  · exact h

theorem notResyncing (h : CommandOnly s t) (quiet : s.notResyncing) : t.notResyncing :=
  h.toLineOnly.regionsKept.notResyncing quiet

/-- What ends the releases can only place a LEAVE, unless the station is LEAVING for a resync (R112, R113). -/
theorem endReleases (quiet : s.notResyncing) : CommandOnly s s.endReleases := by
  rcases State.endReleases_of_notResyncing quiet with same | placed
  · rw [same]
    exact .refl s
  · rw [placed]
    exact (refl s).place

end CommandOnly

/-! ## The conclusion of an event -/

/-- No resync is requested: the regions out of step did not rise, they are fewer than 16, or the station was not MEMBER before
or is not after (R54). -/
def State.inStep (s before : State) : Prop :=
  s.outOfStep ≤ before.outOfStep ∨ s.outOfStep < 16 ∨ before.station ≠ .member ∨ s.station ≠ .member

theorem State.inStep_of_replicas {s before : State} (same : s.replicas = before.replicas) : s.inStep before := by
  refine .inl ?_
  simp only [State.outOfStep, State.staleCount, State.lostCount, State.replica_congr same, le_refl]

theorem State.requestResync_of_inStep {s before : State} (step : s.inStep before) :
    s.requestResync before before.outOfStep = s := by
  refine if_neg ?_
  simp only [Bool.and_eq_true, decide_eq_true_eq, not_and]
  rintro ⟨⟨was, stays⟩, rise⟩ many
  rcases step with no | few | other | other
  · exact absurd rise (Nat.not_lt.2 no)
  · exact absurd few (Nat.not_lt.2 many)
  · exact absurd was other
  · exact absurd stays other

/-- What concludes an event that requests no resync, in a station that is not LEAVING for one (R112, R170). -/
theorem State.conclude_commandOnly {s before : State} (quiet : s.notResyncing) (step : s.inStep before) :
    CommandOnly s (s.conclude before) := by
  rw [State.conclude, State.concludeFrom, State.requestResync_of_inStep step]
  have retried := (CommandOnly.refl s).retryOpen (before := before)
  exact retried.trans (CommandOnly.endReleases (retried.notResyncing quiet))

/-- No OPEN was waiting for its region (R170). -/
def State.noneWaits (s : State) : Prop := ∀ run clock last, s.unit = .executing run → run.progress ≠ .openWaiting clock last

theorem State.noneWaits_of_unit {s : State} {run : Running} (executing : s.unit = .executing run)
    (other : ∀ clock last, run.progress ≠ .openWaiting clock last) : s.noneWaits := by
  intro run' clock last executing'
  rw [executing, CommandUnit.executing.injEq] at executing'
  exact executing' ▸ other clock last

theorem State.noneWaits_of_free {s : State} (free : ∀ run, s.unit ≠ .executing run) : s.noneWaits :=
  fun run _ _ executing => absurd executing (free run)

theorem State.retryOpen_of_noneWaits {s before : State} (none : before.noneWaits) : s.retryOpen before = s := by
  unfold State.retryOpen
  split
  next run0 run was is =>
    split
    next clock last _ _ progress _ => exact absurd progress (none run0 clock last (State.running_iff.1 was))
    next => rfl
  next => rfl

/-- An event changes nothing more at its end: no resync, no waiting OPEN, and no releases under way (R54, R112, R170). -/
theorem State.conclude_eq {s before : State} (step : s.inStep before) (none : before.noneWaits)
    (stays : s.station ≠ .leaving) : s.conclude before = s := by
  rw [State.conclude, State.concludeFrom, State.requestResync_of_inStep step, State.retryOpen_of_noneWaits none,
    State.endReleases_of_not_leaving stays]

/-- The next state of an event that requests no resync: what its rules give, but for the command unit's reach. -/
theorem event_commandOnly {t : Time} {f : State → State} {s : State} (powered : s.powered = true)
    (quiet : (f (s.advance t)).notResyncing) (step : (f (s.advance t)).inStep (s.advance t)) :
    ∃ s', event t f s = .next s' ∧ CommandOnly (f (s.advance t)) s' :=
  ⟨_, event_concluded powered, State.conclude_commandOnly quiet step⟩

/-! ## Faulty frames, activity, the jam, and waiting requests (R143, R146, R150, R155) -/

theorem State.endsOwnCollision_iff {s : State} : s.endsOwnCollision = true ↔ ∃ e, s.liu.collisionEnd = some e ∧ s.now ≤ e := by
  simp only [State.endsOwnCollision, Option.any_eq_true, decide_eq_true_eq]

/-- A faulty frame ends while this station sends nothing (R143). -/
theorem State.faultyFrameEnds_off {s : State} (off : s.liu.transmitter = .off) :
    s.faultyFrameEnds = if s.endsOwnCollision then s.faultHeard else s.faultHeard.raiseFrameErrors := by
  simp only [State.faultyFrameEnds, off]

theorem faultyFrameEnd_off {t : Time} {s : State} (powered : s.powered = true) (quiet : s.notResyncing)
    (off : s.liu.transmitter = .off) :
    ∃ s', exec (.faultyFrameEnd t) s = .next s' ∧ CommandOnly (s.advance t).faultyFrameEnds s' := by
  have form := State.faultyFrameEnds_off (s := s.advance t) off
  refine event_commandOnly (f := State.faultyFrameEnds) powered ?_ (State.inStep_of_replicas ?_)
  · rw [form]
    split <;> exact quiet
  · rw [form]
    split <;> rfl

/-- The oldest waiting request takes its place as any frame does (R4, R155). -/
theorem State.placeWaiting_of_room {s : State} {q : QueueId} {i : Item} {rest : List Item}
    (waits : s.liu.waiting q = i :: rest) (room : (s.liu.queue q).length < 8) :
    s.placeWaiting q = (s.withLiu fun l => l.setWaiting q rest).append q i := by
  have place : s.queueRoom q = true := decide_eq_true room
  simp only [State.placeWaiting, waits, place, if_true]

theorem State.placeWaiting_of_full {s : State} {q : QueueId} (full : 8 ≤ (s.liu.queue q).length) : s.placeWaiting q = s := by
  have no : ¬ s.queueRoom q = true := fun room => absurd (of_decide_eq_true room) (Nat.not_lt.2 full)
  unfold State.placeWaiting
  split
  · rfl
  · exact if_neg no

/-- A frame that is not a CLAIM without a number takes its place as it is (R155). -/
theorem State.append_of_ne {s : State} {q : QueueId} {i : Item} (other : ∀ r, i ≠ .claim r none) :
    s.append q i = s.withLiu fun l => l.setQueue q (l.queue q ++ [{ item := i, marked := false }]) := by
  unfold State.append
  split
  next r => exact absurd rfl (other r)
  next => rfl

@[simp] theorem Liu.waiting_setQueue (l : Liu) (q q' : QueueId) (xs : List Queued) : (l.setQueue q xs).waiting q' = l.waiting q' := by
  cases q <;> cases q' <;> rfl

@[simp] theorem Liu.waiting_setWaiting_self (l : Liu) (q : QueueId) (xs : List Item) : (l.setWaiting q xs).waiting q = xs := by
  cases q <;> rfl

/-- Settles O49. -/
theorem lineActivityAndFreedPlaces : Obligations.LineActivityAndFreedPlaces := by
  refine ⟨fun t e s powered quiet => ⟨fun off => ?_, whenPowered_next (f := fun s => s.withLiu fun l => l.seeActivity s.now _)
    powered, fun ends jams => ?_⟩, fun t q i rest s powered waits => ⟨fun full => ?_, fun room => ?_⟩⟩
  · obtain ⟨s', next, kept⟩ := faultyFrameEnd_off (t := t) powered quiet off
    have form := State.faultyFrameEnds_off (s := s.advance t) off
    by_cases own : (s.advance t).endsOwnCollision = true
    · rw [form, if_pos own] at kept
      obtain ⟨e, collided, soon⟩ := State.endsOwnCollision_iff.1 own
      refine ⟨s', next, kept.fallback, kept.lastSender, kept.activityEnd, kept.reply,
        fun past => absurd soon (Nat.not_le.2 (past e collided)), fun _ _ _ => kept.counters, kept.directory, kept.replicas⟩
    · rw [form, if_neg own] at kept
      exact ⟨s', next, kept.fallback, kept.lastSender, kept.activityEnd, kept.reply, fun _ => kept.counters,
        fun e collided soon => absurd (State.endsOwnCollision_iff (s := s.advance t).2 ⟨e, collided, soon⟩) own, kept.directory, kept.replicas⟩
  · by_cases due : ends ≤ max s.now t
    · have form := State.endJam_due (s := s.advance t) jams due
      obtain ⟨s', next, kept⟩ := event_commandOnly (f := State.endJam) (t := t) powered (by rw [form]; exact quiet)
        (State.inStep_of_replicas (by rw [form]; rfl))
      rw [form] at kept
      refine ⟨s', next, fun early => absurd due (Nat.not_le.2 early), fun _ => ⟨kept.transmitter, kept.fallback, kept.activityEnd,
        kept.collisionEnd.trans (congrArg some kept.activityEnd.symm)⟩, kept.reply, kept.directory, kept.replicas, kept.counters⟩
    · have form := State.endJam_early (s := s.advance t) jams (Nat.not_le.1 due)
      obtain ⟨s', next, kept⟩ := event_commandOnly (f := State.endJam) (t := t) powered (by rw [form]; exact quiet)
        (State.inStep_of_replicas (by rw [form]))
      rw [form] at kept
      exact ⟨s', next, fun _ => ⟨kept.transmitter.trans jams, kept.fallback, kept.activityEnd, kept.collisionEnd⟩,
        fun now => absurd now due, kept.reply, kept.directory, kept.replicas, kept.counters⟩
  · refine (whenPowered_next (f := fun s => s.placeWaiting q) powered).trans ?_
    rw [State.placeWaiting_of_full (s := s.advance t) full]
    rfl
  · refine ⟨_, whenPowered_next (f := fun s => s.placeWaiting q) powered, ?_⟩
    rw [State.placeWaiting_of_room (s := s.advance t) waits room]
    refine ⟨?_, fun other => ?_, fun r claim => ?_⟩
    · unfold State.append
      split <;> exact (Liu.waiting_setQueue _ _ _ _).trans (Liu.waiting_setWaiting_self _ _ _)
    · rw [State.append_of_ne other]
      exact ⟨(Liu.queue_setQueue_self _ _ _).trans (congrArg (· ++ _) (Liu.queue_setWaiting _ _ _ _)), rfl⟩
    · subst claim
      exact ⟨(Liu.queue_setQueue_self _ _ _).trans (congrArg (· ++ _) (Liu.queue_setWaiting _ _ _ _)), rfl⟩

end Sys2Proof.Machine
end

section
/-! PROOF. ABORT and ABORT-ALL (R179 to R181, R193, R196, R204), and ATTACH, DETACH and RESYNC (R110 to R114, R120). -/

-- One declaration at a time: side by side, the case splits of these proofs want more threads than the memory limit allows.
set_option Elab.async false

namespace Sys2Proof.Machine

/-! ## Withdrawal (R156) -/

/-- A frame that stays at a withdrawal is in flight or does not match. -/
theorem of_mem_dropUnbegun {flying : Bool} {p : Item → Bool} {xs : List Queued} {y : Queued}
    (stays : y ∈ dropUnbegun flying p xs) : (flying = true ∧ xs.head? = some y) ∨ p y.item = false := by
  unfold dropUnbegun at stays
  split at stays
  · cases stays
  next x rest =>
    split at stays
    next flies =>
      rcases List.mem_cons.1 stays with rfl | later
      · exact .inl ⟨flies, rfl⟩
      · exact .inr (by simpa using (List.mem_filter.1 later).2)
    · exact .inr (by simpa using (List.mem_filter.1 stays).2)

theorem Liu.queue_cancel (l : Liu) (q : QueueId) (p : Item → Bool) :
    (l.cancel q p).queue q = dropUnbegun (l.flying q) p (l.queue q) := by
  simp [Liu.cancel]

theorem Liu.waiting_cancel (l : Liu) (q : QueueId) (p : Item → Bool) :
    (l.cancel q p).waiting q = (l.waiting q).filter fun i => !p i := by
  simp [Liu.cancel]

/-- The frame in flight is the head of the queue that is sent from (R154). -/
theorem Liu.flight_of_flying {l : Liu} {q : QueueId} (flies : l.flying q = true) : l.flight = (l.queue q).head? := by
  unfold Liu.flying at flies
  unfold Liu.flight
  split at flies
  next q' _ _ => rw [eq_of_beq flies]
  all_goals cases flies

/-- After a withdrawal no matching frame is left, but for one in flight (R156). -/
theorem Liu.holds_cancel {l : Liu} {q : QueueId} {p : Item → Bool} (ground : l.flightIs p = false) :
    (l.cancel q p).holds q p = false := by
  simp only [Liu.holds, Liu.queue_cancel, Liu.waiting_cancel, Bool.or_eq_false_iff, List.any_eq_false]
  refine ⟨fun y stays => ?_, fun i stays => ?_⟩
  · rcases of_mem_dropUnbegun stays with ⟨flies, head⟩ | other
    · have flight : l.flight = some y := (Liu.flight_of_flying flies).trans head
      simpa [Liu.flightIs, flight] using ground
    · simp [other]
  · simpa using (List.mem_filter.1 stays).2

/-! ## ABORT and ABORT-ALL -/

/-- The command in execution with an abort standing on it (R179, R180). -/
def State.standAbort (s : State) (run : Running) : State := { s with unit := .executing { run with abort := true } }

/-- The commands whose one frame an ABORT withdraws (R180, R193). -/
def Progress.hasFrame : Progress → Prop
  | .close | .renew | .write | .chunk _ _ _ _ _ _ => True
  | .openWaiting _ _ | .openClaimQueued _ _ | .openClaimPending _ | .scan _ _ _ => False

theorem State.abortRunning_frame {s : State} {run : Running} (executing : s.running = some run)
    (frame : run.progress.hasFrame) :
    s.abortRunning = if s.commandFlying run then s.standAbort run else (s.cancelCommandFrame run).endCommand run .aborted := by
  obtain ⟨record, region, abort, progress⟩ := run
  cases progress with
  | close | renew | write | chunk => simp only [State.abortRunning, executing, State.standAbort]
  | _ => cases frame

theorem State.abortRunning_claimQueued {s : State} {run : Running} {clock : WaitClock} {before : Reason}
    (executing : s.running = some run) (progress : run.progress = .openClaimQueued clock before) :
    s.abortRunning =
      if s.commandFlying run then s.standAbort run else (s.cancelCommandFrame run).endCommand run .aborted before := by
  simp only [State.abortRunning, executing, progress, State.standAbort]

/-- An abort that ends a command: its frame is withdrawn and its record posted (R179, R180). -/
theorem State.cancelThenEnd_of_room {s : State} {run : Running} {reason : Reason} (ground : s.commandFlying run = false)
    (room : s.host.completionQueue.length < 16) :
    let s' := (s.cancelCommandFrame run).endCommand run .aborted reason
    s'.unit = .idle ∧ s'.host.completionQueue = s.host.completionQueue ++
        [run.completion .aborted reason (s.replica run.region).version run.progress.bytesDone 0 false false false] ∧
      s'.liu.holds .originated run.owns = false := by
  dsimp only
  rw [State.endCommand_of_room (s := s.cancelCommandFrame run) room]
  exact ⟨rfl, rfl, Liu.holds_cancel (q := .originated) ground⟩

/-- Settles O19. -/
theorem abortActsOnTheCommandInExecution : Obligations.AbortActsOnTheCommandInExecution := by
  intro t s powered
  let u := (s.advance t).beginAnswered .ok
  have kept : HostKept u u.abortRunning := (HostKept.refl u).abortRunning
  have line := u.abortRunning_lineOnly
  refine ⟨u.abortRunning, u.abortRunning.cancelQueued, whenPowered_next powered,
    whenPowered_next (f := fun s => s.abort.cancelQueued) powered, kept.answer, kept.answer, rfl, rfl, kept.commands,
    congrArg (List.map _) kept.commands, rfl, line.directory, line.replicas, fun free => ?_, fun run executing => ?_⟩
  · have none : u.running = none := by
      rw [Option.eq_none_iff_forall_ne_some]
      exact fun run some => free run (State.running_iff.1 some)
    have same : u.abortRunning = u := by simp only [State.abortRunning, none]
    rw [same]
    exact ⟨rfl, rfl, rfl⟩
  · have running : u.running = some run := State.running_iff.2 executing
    refine ⟨fun kind => ?_, fun clock before progress => ?_, fun clock progress => ?_, fun clock last progress room => ?_,
      fun next n d progress room => ?_⟩
    · have frame : run.progress.hasFrame := by
        rcases kind with eq | eq | eq | ⟨_, _, _, _, _, _, eq⟩ <;> rw [eq] <;> trivial
      rw [State.abortRunning_frame running frame]
      refine ⟨fun flies => ?_, fun ground room => ?_⟩
      · have flies' : u.commandFlying run = true := flies
        rw [if_pos flies']
        exact ⟨rfl, rfl, rfl⟩
      · have ground' : u.commandFlying run = false := ground
        rw [if_neg (Bool.not_eq_true _ ▸ ground')]
        obtain ⟨idle, posted, gone⟩ := State.cancelThenEnd_of_room (reason := .none) ground' room
        exact ⟨⟨idle, _, posted, rfl, rfl, rfl, rfl, rfl, rfl⟩, gone⟩
    · rw [State.abortRunning_claimQueued running progress]
      refine ⟨fun flies => ?_, fun ground room => ?_⟩
      · have flies' : u.commandFlying run = true := flies
        rw [if_pos flies']
        exact ⟨rfl, rfl, rfl⟩
      · have ground' : u.commandFlying run = false := ground
        rw [if_neg (Bool.not_eq_true _ ▸ ground')]
        obtain ⟨idle, posted, gone⟩ := State.cancelThenEnd_of_room (reason := before) ground' room
        exact ⟨⟨idle, _, posted, rfl, rfl, rfl, congrArg Progress.bytesDone progress, rfl, rfl⟩, gone⟩
    · have stands : u.abortRunning = u.standAbort run := by
        simp only [State.abortRunning, running, progress, State.standAbort]
      rw [stands]
      exact ⟨rfl, rfl, rfl⟩
    · have ends : u.abortRunning = u.endCommand run .aborted last := by
        simp only [State.abortRunning, running, progress]
      rw [ends, State.endCommand_of_room (s := u) room]
      exact ⟨⟨rfl, _, rfl, rfl, rfl, rfl, congrArg Progress.bytesDone progress, rfl, rfl⟩, rfl⟩
    · have ends : u.abortRunning = u.endCommand run .aborted (position := next) (count := n) := by
        simp only [State.abortRunning, running, progress]
      rw [ends, State.endCommand_of_room (s := u) room]
      exact ⟨⟨rfl, _, rfl, rfl, rfl, rfl, rfl, rfl, rfl⟩, rfl⟩

/-! ## ATTACH, DETACH and RESYNC -/

theorem LineOnly.faultCause {s t : State} (h : LineOnly s t) : t.membership.faultCause = s.membership.faultCause := by
  rw [h.membership]

theorem LineOnly.leaveCause {s t : State} (h : LineOnly s t) : t.membership.leaveCause = s.membership.leaveCause := by
  rw [h.membership]

theorem LineOnly.listenTimer {s t : State} (h : LineOnly s t) : t.membership.listenTimer = s.membership.listenTimer := by
  rw [h.membership]

theorem LineOnly.member {s t : State} (h : LineOnly s t) (x : Station) : t.member x = s.member x :=
  State.member_congr h.membership x

/-- The records after the entry into DETACHED (R120). -/
theorem State.enterDetached_lineOnly (s : State) :
    LineOnly (s.core.offLine.withMembership fun m =>
      { m with
        station := .detached, listenTimer := none, isolationTimer := none, memberHeard := false, leaveCause := none })
      s.enterDetached := LineOnly.of_core_eq (State.core_enterDetached s)

/-- Off the line every membership entry is ABSENT, every directory entry UNKNOWN and every replica UNSYNCED (R117, R120). -/
theorem State.member_offLine (s : State) (x : Station) : s.offLine.member x = MemberEntry.absent := by
  simp [State.member, State.offLine, State.withMembership]

theorem State.entry_offLine (s : State) (r : Region) : s.offLine.entry r = Entry.unknown := State.entry_of_replicate rfl r

theorem State.replica_offLine (s : State) (r : Region) :
    s.offLine.replica r = { s.replica r with condition := .unsynced, attempts := 0 } := State.replica_unsynced s r

/-- The fault cause stands through the conclusion of an event that requests no resync (R97). -/
theorem State.conclude_faultCause {s before : State} (step : s.inStep before) :
    (s.conclude before).membership.faultCause = s.membership.faultCause := by
  rw [State.conclude, State.concludeFrom, State.requestResync_of_inStep step]
  have retried : (s.retryOpen before).membership = s.membership := (s.retryOpen_lineOnly before).membership
  rw [← retried]
  unfold State.endReleases
  split
  · split
    · exact (LineOnly.of_core_eq (State.core_enterJoining _)).faultCause
    all_goals exact (State.place_lineOnly _ _ _).faultCause
  · rfl

/-- What a request leaves that is refused: its answer alone (R110). -/
theorem State.conclude_refused (s : State) :
    let s' := (s.beginAnswered .wrongState).conclude s
    s'.membership.faultCause = s.membership.faultCause ∧ s'.host.commandQueue = s.host.commandQueue ∧
      s'.host.answer = some .wrongState ∧ (s.notResyncing → s'.station = s.station) :=
  have step : (s.beginAnswered .wrongState).inStep s := State.inStep_of_replicas rfl
  have kept : HostKept (s.beginAnswered .wrongState) ((s.beginAnswered .wrongState).conclude s) := (HostKept.refl _).conclude
  ⟨State.conclude_faultCause step, kept.commands, kept.answer,
    fun quiet => (State.conclude_commandOnly (s := s.beginAnswered .wrongState) quiet step).station⟩

/-- ATTACH by the table of R110. -/
theorem attach_follows {t : Time} {s : State} (powered : s.powered = true) :
    ∃ a, exec (.attach t) s = .next a ∧ a.membership.faultCause = s.membership.faultCause ∧
      a.host.commandQueue = s.host.commandQueue ∧
      (s.station = .detached → a.host.answer = some .ok ∧ a.station = .listening ∧
        a.membership.listenTimer = some (max s.now t + 25000000)) ∧
      (s.station ≠ .detached → a.host.answer = some .wrongState ∧ (s.notResyncing → a.station = s.station)) := by
  refine ⟨_, event_concluded powered, ?_⟩
  by_cases detached : s.station = .detached
  · rw [show (s.advance t).attach = ((s.advance t).beginAnswered .ok).enterListening from if_pos detached,
      State.enterListening_eq]
    have concluded := State.conclude_commandOnly (before := s.advance t)
      (s := ((((s.advance t).beginAnswered .ok).withMembership fun _ => ((s.advance t).beginAnswered .ok).listening).withLiu
        fun l => { l with failures := 0 }).setStateChanged) (fun leaving => nomatch leaving) (State.inStep_of_replicas rfl)
    exact ⟨concluded.faultCause, concluded.commandQueue, fun _ => ⟨concluded.answer, concluded.station, concluded.listenTimer⟩,
      fun no => absurd detached no⟩
  · rw [show (s.advance t).attach = (s.advance t).beginAnswered .wrongState from if_neg detached]
    obtain ⟨fault, commands, answer, station⟩ := (s.advance t).conclude_refused
    exact ⟨fault, commands, fun is => absurd is detached, fun _ => ⟨answer, station⟩⟩

/-- The records after the entry into LEAVING (R111). -/
theorem State.enterLeaving_lineOnly (s : State) (cause : LeaveCause) :
    LineOnly (s.core.stopRepair.withMembership fun m => { m with station := .leaving, leaveCause := some cause })
      (s.enterLeaving cause) := LineOnly.of_core_eq (State.core_enterLeaving s cause)

/-- A DETACH in MEMBER or LEAVING makes the leave cause DETACH (R110, R111). -/
theorem State.detach_leaves {s : State} (here : s.station = .member ∨ s.station = .leaving) :
    s.detach.station = .leaving ∧ s.detach.membership.leaveCause = some .detach ∧
      s.detach.membership.faultCause = s.membership.faultCause ∧ s.detach.directory = s.directory ∧
      s.detach.replicas = s.replicas ∧ HostKept (s.beginAnswered .ok) s.detach := by
  rcases here with is | is
  · have form : s.detach = (s.beginAnswered .ok).enterLeaving .detach := by simp only [State.detach, is]
    have line := (s.beginAnswered .ok).enterLeaving_lineOnly .detach
    rw [form]
    exact ⟨line.station, line.leaveCause, line.faultCause, line.directory, line.replicas, (HostKept.refl _).enterLeaving⟩
  · have form : s.detach = (s.beginAnswered .ok).withMembership fun m => { m with leaveCause := some .detach } := by
      simp only [State.detach, is]
    rw [form]
    exact ⟨is, rfl, rfl, rfl, rfl, (HostKept.refl _).withMembership⟩

theorem State.detach_off {s : State} (here : s.station = .listening ∨ s.station = .joining ∨ s.station = .isolated) :
    s.detach = (s.beginAnswered .ok).enterDetached := by
  rcases here with is | is | is <;> simp only [State.detach, is]

theorem State.detach_refused {s : State} (here : s.station = .unconfigured ∨ s.station = .detached) :
    s.detach = s.beginAnswered .wrongState := by
  rcases here with is | is <;> simp only [State.detach, is]

/-- DETACH by the table of R110. -/
theorem detach_follows {t : Time} {s : State} (powered : s.powered = true) :
    ∃ d, exec (.detach t) s = .next d ∧ d.membership.faultCause = s.membership.faultCause ∧
      d.host.commandQueue = s.host.commandQueue ∧
      (s.station = .unconfigured ∨ s.station = .detached → d.host.answer = some .wrongState ∧ d.station = s.station) ∧
      (s.station = .member ∨ s.station = .leaving → d.host.answer = some .ok ∧ d.station = .leaving ∧
        d.membership.leaveCause = some .detach ∧ d.directory = s.directory ∧ d.replicas = s.replicas) ∧
      (s.station = .listening ∨ s.station = .joining ∨ s.station = .isolated →
        d.host.answer = some .ok ∧ d.station = .detached ∧ (∀ x, d.member x = MemberEntry.absent) ∧
          (∀ q, (d.entry q) = Entry.unknown ∧ (d.replica q).condition = .unsynced ∧
            (d.replica q).content = (s.replica q).content) ∧ d.budget = []) := by
  refine ⟨_, event_concluded powered, ?_⟩
  have groups : (s.station = .unconfigured ∨ s.station = .detached) ∨ (s.station = .member ∨ s.station = .leaving) ∨
      (s.station = .listening ∨ s.station = .joining ∨ s.station = .isolated) := by
    cases s.station <;> simp
  rcases groups with here | here | here
  · rw [State.detach_refused (s := s.advance t) here]
    obtain ⟨fault, commands, answer, station⟩ := (s.advance t).conclude_refused
    have quiet : (s.advance t).notResyncing := by
      intro leaving
      have leaving' : s.station = .leaving := leaving
      simp [leaving'] at here
    exact ⟨fault, commands, fun _ => ⟨answer, station quiet⟩, fun other => by rcases here with is | is <;> simp [is] at other,
      fun other => by rcases here with is | is <;> simp [is] at other⟩
  · obtain ⟨station, cause, fault, directory, replicas, kept⟩ := State.detach_leaves (s := s.advance t) here
    have concluded := State.conclude_commandOnly (s := (s.advance t).detach) (before := s.advance t)
      (fun _ => by rw [cause]; exact nofun) (State.inStep_of_replicas replicas)
    exact ⟨concluded.faultCause.trans fault, concluded.commandQueue.trans kept.commands,
      fun other => by rcases here with is | is <;> simp [is] at other,
      fun _ => ⟨concluded.answer.trans kept.answer, concluded.station.trans station, concluded.leaveCause.trans cause,
        concluded.directory.trans directory, concluded.replicas.trans replicas⟩,
      fun other => by rcases here with is | is <;> simp [is] at other⟩
  · rw [State.detach_off (s := s.advance t) here]
    let u := (s.advance t).beginAnswered .ok
    have kept : HostKept u u.enterDetached := (HostKept.refl u).enterDetached
    have entered := u.enterDetached_lineOnly
    have concluded := State.conclude_commandOnly (s := u.enterDetached) (before := s.advance t)
      (fun leaving => nomatch entered.station.symm.trans leaving)
      (.inr (.inr (.inr (by rw [entered.station]; exact nofun))))
    have line := entered.trans concluded.toLineOnly
    refine ⟨line.faultCause, concluded.commandQueue.trans kept.commands,
      fun other => by rcases here with is | is | is <;> simp [is] at other,
      fun other => by rcases here with is | is | is <;> simp [is] at other,
      fun _ => ⟨concluded.answer.trans kept.answer, line.station, fun x => (line.member x).trans (u.core.member_offLine x),
        fun q => ⟨(line.entry q).trans (u.core.entry_offLine q), ?_⟩, line.budget⟩⟩
    have off := (line.replica q).trans (u.core.replica_offLine q)
    rw [off]
    exact ⟨rfl, rfl⟩

/-! ### RESYNC with nothing to release (R112, R114) -/

theorem State.retryOpen_of_ended {s before : State} (none : s.noneWaits) : s.retryOpen before = s := by
  unfold State.retryOpen
  split
  next run0 run _ is =>
    split
    next clock last _ progress => exact absurd progress (none run clock last (State.running_iff.1 is))
    next => rfl
  next => rfl

theorem CommandOnly.noticeLeftMember (s : State) : CommandOnly s s.noticeLeftMember ∧ s.noticeLeftMember.liu = s.liu := by
  have post (c : Completion) : (s.post c).liu = s.liu := by
    unfold State.post
    split <;> rfl
  unfold State.noticeLeftMember
  split
  · split
    · exact ⟨.refl s, rfl⟩
    · exact ⟨(CommandOnly.refl s).endCommand, post _⟩
  · exact ⟨.refl s, rfl⟩

/-- *left MEMBER* leaves no command but a SCAN in execution (R178). -/
theorem State.noticeLeftMember_noneWaits (s : State) : s.noticeLeftMember.noneWaits := by
  have post (c : Completion) : (s.post c).noneWaits := by
    refine State.noneWaits_of_free fun run => ?_
    unfold State.post
    split <;> exact nofun
  unfold State.noticeLeftMember
  split
  next run running =>
    split
    next scan => exact State.noneWaits_of_unit (State.running_iff.1 running) fun _ _ eq => nomatch scan.symm.trans eq
    next => exact post _
  next none =>
    refine State.noneWaits_of_free fun run executing => ?_
    rw [State.running_iff.2 executing] at none
    cases none

theorem State.noneWaits_congr {s t : State} (same : t.unit = s.unit) (none : s.noneWaits) : t.noneWaits := by
  rwa [State.noneWaits, same]

/-- The station at its entry into LEAVING before its RELEASEs are placed (R111). -/
def State.readyToLeave (s : State) (cause : LeaveCause) : State :=
  ((s.withdrawQueue .originated Item.isRelease).stopRepair).withMembership fun m => { m with leaveCause := some cause }

theorem State.enterLeaving_eq (s : State) (cause : LeaveCause) :
    let u := s.noticeLeftMember.readyToLeave cause
    s.enterLeaving cause =
      ((allRegions.filter fun r => u.heldByOwn r && !u.liu.flightIs (Item.isReleaseFor r)).foldl
        (fun s r => s.placeRelease r false) u).setStation .leaving := rfl

theorem Liu.flying_of_off {l : Liu} (off : l.transmitter = .off) (q : QueueId) : l.flying q = false := by
  simp only [Liu.flying, off]

theorem Liu.flightIs_of_off {l : Liu} (off : l.transmitter = .off) (p : Item → Bool) : l.flightIs p = false := by
  simp [Liu.flightIs, Liu.flight, off]

/-- With nothing in flight a withdrawal removes every matching frame and request (R156). -/
theorem Liu.cancel_of_off {l : Liu} (off : l.transmitter = .off) (q : QueueId) (p : Item → Bool) :
    l.cancel q p = (l.setQueue q ((l.queue q).filter fun y => !p y.item)).setWaiting q ((l.waiting q).filter fun i => !p i) := by
  have drop (xs : List Queued) : dropUnbegun false p xs = xs.filter fun y => !p y.item := by
    cases xs <;> simp [dropUnbegun]
  simp only [Liu.cancel, Liu.flying_of_off off, drop]

theorem Liu.markFlight_of_off {l : Liu} (off : l.transmitter = .off) (q : QueueId) (p : Item → Bool) :
    l.markFlight q p = l := by
  simp only [Liu.markFlight, Liu.flying_of_off off]

theorem State.readyToLeave_liu {s : State} {cause : LeaveCause} (off : s.liu.transmitter = .off) :
    (s.readyToLeave cause).liu = s.liu.line := by
  show (s.liu.cancel .originated fun _ => true).markFlight .originated (fun i => !i.isRelease) = _
  rw [Liu.cancel_of_off off, Liu.markFlight_of_off (by exact off)]
  simp [Liu.line, Liu.setQueue, Liu.setWaiting]

theorem State.readyToLeave_unit (s : State) (cause : LeaveCause) (st : StationState) :
    ((s.readyToLeave cause).setStation st).unit = s.unit := rfl

/-- A station that holds nothing and sends nothing leaves an empty originated queue at its entry into LEAVING (R111). -/
theorem State.enterLeaving_free {s : State} {cause : LeaveCause} (off : s.liu.transmitter = .off)
    (nothing : ∀ r, s.heldByOwn r = false) :
    (s.enterLeaving cause).liu = s.liu.line ∧ (s.enterLeaving cause).noneWaits := by
  obtain ⟨left, liu⟩ := CommandOnly.noticeLeftMember s
  have none : (allRegions.filter fun r => (s.noticeLeftMember.readyToLeave cause).heldByOwn r &&
      !(s.noticeLeftMember.readyToLeave cause).liu.flightIs (Item.isReleaseFor r)) = [] := by
    refine List.filter_eq_nil_iff.2 fun r _ => ?_
    have same : (s.noticeLeftMember.readyToLeave cause).heldByOwn r = s.heldByOwn r := left.heldByOwn r
    simp [same, nothing]
  have form : s.enterLeaving cause = (s.noticeLeftMember.readyToLeave cause).setStation .leaving := by
    rw [State.enterLeaving_eq, none]
    rfl
  have ready := State.readyToLeave_liu (cause := cause) (left.transmitter.trans off)
  rw [liu] at ready
  rw [form]
  exact ⟨ready, State.noneWaits_congr (State.readyToLeave_unit _ _ _) s.noticeLeftMember_noneWaits⟩

theorem State.heldByOwn_of_heldCount {s : State} (zero : s.heldCount = 0) (r : Region) : s.heldByOwn r = false := by
  simpa using List.countP_eq_zero.1 zero r (List.mem_finRange r)

/-- The releases have not ended while a region is held or claimed (R112). -/
theorem State.endReleases_of_holding {s : State} (holds : 0 < s.heldCount + s.pendingCount) : s.endReleases = s := by
  refine if_neg ?_
  simp only [Bool.and_eq_true, decide_eq_true_eq]
  omega

theorem State.conclude_of_holding {s before : State} (step : s.inStep before) (holds : 0 < s.heldCount + s.pendingCount) :
    LineOnly s (s.conclude before) := by
  have retried := s.retryOpen_lineOnly before
  rw [State.conclude, State.concludeFrom, State.requestResync_of_inStep step, State.endReleases_of_holding]
  · exact retried
  · rw [retried.heldCount, retried.pendingCount]
    exact holds

/-- A resync with nothing held, claimed or in flight goes on to JOINING in the same event (R112, R114). -/
theorem State.conclude_resync {s before : State} (off : s.liu.transmitter = .off)
    (zero : s.heldCount = 0) (pending : s.pendingCount = 0) :
    (s.enterLeaving .resync).conclude before = (s.enterLeaving .resync).enterJoining := by
  obtain ⟨liu, none⟩ := State.enterLeaving_free (cause := .resync) off (State.heldByOwn_of_heldCount zero)
  have line := s.enterLeaving_lineOnly .resync
  have unplaced : (s.enterLeaving .resync).leavePlaced = false := by
    simp only [State.leavePlaced, liu]
    rfl
  have ground : (s.enterLeaving .resync).liu.flightIs Item.isClaim = false := by
    rw [liu]
    exact Liu.flightIs_of_off (l := s.liu.line) off _
  have held : (s.enterLeaving .resync).heldCount = 0 := line.heldCount.trans zero
  have claimed : (s.enterLeaving .resync).pendingCount = 0 := line.pendingCount.trans pending
  rw [State.conclude, State.concludeFrom, State.requestResync_of_inStep
    (.inr (.inr (.inr (by rw [line.station]; exact nofun)))), State.retryOpen_of_ended none, State.endReleases]
  have station : (s.enterLeaving .resync).station = .leaving := line.station
  have cause : (s.enterLeaving .resync).membership.leaveCause = some .resync := line.leaveCause
  simp [station, unplaced, ground, held, claimed, cause]

/-- RESYNC by the table of R110. -/
theorem resync_follows {t : Time} {s : State} (powered : s.powered = true) :
    ∃ r, exec (.resync t) s = .next r ∧ r.membership.faultCause = s.membership.faultCause ∧
      r.host.commandQueue = s.host.commandQueue ∧
      (s.station ≠ .member → r.host.answer = some .wrongState ∧ (s.notResyncing → r.station = s.station)) ∧
      (s.station = .member → 0 < s.heldCount + s.pendingCount → r.host.answer = some .ok ∧ r.station = .leaving ∧
        r.membership.leaveCause = some .resync ∧ r.directory = s.directory) ∧
      (s.station = .member → s.heldCount + s.pendingCount = 0 → s.liu.transmitter = .off →
        r.host.answer = some .ok ∧ r.station = .joining) := by
  refine ⟨_, event_concluded powered, ?_⟩
  by_cases member : s.station = .member
  · rw [show (s.advance t).resync = ((s.advance t).beginAnswered .ok).enterLeaving .resync from if_pos member]
    let u := (s.advance t).beginAnswered .ok
    have line := u.enterLeaving_lineOnly .resync
    have kept : HostKept u ((u.enterLeaving .resync).conclude (s.advance t)) := (HostKept.refl u).enterLeaving.conclude
    have step : (u.enterLeaving .resync).inStep (s.advance t) := .inr (.inr (.inr (by rw [line.station]; exact nofun)))
    refine ⟨(State.conclude_faultCause step).trans line.faultCause, kept.commands, fun no => absurd member no,
      fun _ some => ⟨kept.answer, ?_⟩, fun _ nothing off => ⟨kept.answer, ?_⟩⟩
    · have holds : 0 < (u.enterLeaving .resync).heldCount + (u.enterLeaving .resync).pendingCount :=
        line.heldCount ▸ line.pendingCount ▸ some
      have concluded := line.trans (State.conclude_of_holding step holds)
      exact ⟨concluded.station, concluded.leaveCause, concluded.directory⟩
    · rw [State.conclude_resync (s := u) off (Nat.add_eq_zero_iff.1 nothing).1 (Nat.add_eq_zero_iff.1 nothing).2]
      exact (LineOnly.of_core_eq (State.core_enterJoining _)).station
  · rw [show (s.advance t).resync = (s.advance t).beginAnswered .wrongState from if_neg member]
    obtain ⟨fault, commands, answer, station⟩ := (s.advance t).conclude_refused
    exact ⟨fault, commands, fun _ => ⟨answer, station⟩, fun is => absurd is member, fun is => absurd is member⟩

/-- Settles O20. -/
theorem hostStateRequestsFollowTheTable : Obligations.HostStateRequestsFollowTheTable := by
  intro t s powered
  obtain ⟨a, nextA, faultA, commandsA, detached, notDetached⟩ := attach_follows (t := t) powered
  obtain ⟨d, nextD, faultD, commandsD, refused, leaving, off⟩ := detach_follows (t := t) powered
  obtain ⟨r, nextR, faultR, commandsR, notMember, holding, nothing⟩ := resync_follows (t := t) powered
  exact ⟨a, d, r, nextA, nextD, nextR, faultA, faultD, faultR, commandsA, commandsD, commandsR, detached, notDetached, refused,
    leaving, off, notMember, holding, nothing⟩

end Sys2Proof.Machine
end
section
/-! PROOF. The command unit's takings: the commands that end at their start, and those that place a frame (R161, R165, R166,
R172 to R177, R182 to R186, R194). -/

-- One declaration at a time: side by side, the case splits of these proofs want more threads than the memory limit allows.
set_option Elab.async false

namespace Sys2Proof.Machine

/-! ## The taking of the head record (R161) -/

/-- The station at instant `t` with the head record taken. -/
def State.taken (s : State) (t : Time) (rest : List QueuedCommand) : State :=
  (s.advance t).withHost fun h => { h with commandQueue := rest }

/-- What a command of this kind does at its start. -/
def CommandKind.start : CommandKind → CommandRecord → State → State
  | .open => State.startOpen
  | .close => State.startClose
  | .renew => State.startRenew
  | .write => State.startWrite
  | .repair => State.startRepair
  | .copy => State.startCopy
  | .fill => State.startFill
  | .scan => State.startScan

theorem CommandKind.exec_row (k : CommandKind) (t : Time) (s : State) :
    exec (k.row t) s = whenPowered t (State.take (QueuedCommand.isKind (some k)) k.start) s := by
  cases k <;> rfl

theorem row_starts {k : CommandKind} {t : Time} {c : CommandRecord} {rest : List QueuedCommand} {s : State}
    (ready : s.readyFor c rest) (kind : kindOf c.kind = some k) :
    exec (k.row t) s = .next (k.start c (s.taken t rest)) := by
  obtain ⟨powered, idle, queue⟩ := ready
  rw [k.exec_row, whenPowered_next powered,
    State.take_of_idle (s := s.advance t) idle queue (by simp [QueuedCommand.isKind, kind])]
  rfl

/-- A command ends at its start (R162, R165). -/
theorem State.taken_endAtStart {s : State} {t : Time} {rest : List QueuedCommand} {c : CommandRecord} {status : Status}
    (idle : s.unit = .idle) (room : s.host.completionQueue.length < 16) :
    (s.taken t rest).endAtStart c status = s.endedAtStart t rest c status .none (s.versionAtStart c) := by
  refine (State.post_of_room (s := s.taken t rest) room).trans ?_
  rw [← idle]
  rfl

theorem State.versionAtStart_of_region {s : State} {c : CommandRecord} {r : Region} (region : regionOf c.region = some r) :
    s.versionAtStart c = (s.replica r).version := by
  simp only [State.versionAtStart, region]

theorem State.versionAtStart_of_none {s : State} {c : CommandRecord} (none : regionOf c.region = none) :
    s.versionAtStart c = 0 := by
  simp only [State.versionAtStart, none]

/-! ## The checks (R165) -/

theorem State.startInMember_of_none {s : State} {c : CommandRecord} {valid : Bool} {f : Region → State}
    (none : regionOf c.region = none) : s.startInMember c valid f = s.endAtStart c .invalid := by
  simp only [State.startInMember, none]

theorem State.startInMember_invalid {s : State} {c : CommandRecord} {valid : Bool} {f : Region → State}
    (invalid : valid = false) : s.startInMember c valid f = s.endAtStart c .invalid := by
  unfold State.startInMember
  split
  · simp [invalid]
  · rfl

theorem State.startInMember_notMember {s : State} {c : CommandRecord} {r : Region} {f : Region → State}
    (region : regionOf c.region = some r) (off : s.station ≠ .member) :
    s.startInMember c true f = s.endAtStart c .notMember := by
  simp [State.startInMember, region, off]

theorem State.startInMember_member {s : State} {c : CommandRecord} {r : Region} {f : Region → State}
    (region : regionOf c.region = some r) (member : s.station = .member) : s.startInMember c true f = f r := by
  simp [State.startInMember, region, member]

theorem CommandKind.start_of_none (k : CommandKind) {c : CommandRecord} {s : State} (none : regionOf c.region = none) :
    k.start c s = s.endAtStart c .invalid := by
  match k with
  | .open | .close | .renew | .write | .fill => exact State.startInMember_of_none none
  | .copy =>
    show s.startCopy c = _
    unfold State.startCopy
    split
    · rfl
    · exact State.startInMember_of_none none
  | .repair =>
    show s.startRepair c = _
    simp only [State.startRepair, none]
  | .scan =>
    show s.startScan c = _
    simp only [State.startScan, none]

theorem CommandKind.start_invalid (k : CommandKind) {c : CommandRecord} {s : State} (invalid : c.fieldsValid k = false) :
    k.start c s = s.endAtStart c .invalid := by
  match k, invalid with
  | .open, invalid | .close, invalid | .renew, invalid | .repair, invalid => cases invalid
  | .write, invalid | .fill, invalid => exact State.startInMember_invalid invalid
  | .copy, invalid =>
    show s.startCopy c = _
    unfold State.startCopy
    split
    · rfl
    next source region =>
      simp only [CommandRecord.fieldsValid, region, Option.isSome_some, Bool.true_and] at invalid
      exact State.startInMember_invalid invalid
  | .scan, invalid =>
    show s.startScan c = _
    unfold State.startScan
    split
    · rfl
    · exact if_pos (by simpa [CommandRecord.fieldsValid] using invalid)

/-- Order 3 of R165, and the holding that every kind but OPEN, REPAIR and SCAN needs (R172 to R174, R182, R183). -/
theorem CommandKind.start_inMember (k : CommandKind) {c : CommandRecord} {s : State} (valid : c.fieldsValid k = true)
    (notRepair : k ≠ .repair) (notScan : k ≠ .scan) :
    ∃ f, k.start c s = s.startInMember c true f ∧
      (k ≠ .open → ∀ r, s.heldUnlapsed r = false → f r = s.endAtStart c .notOwner) := by
  match k, valid with
  | .open, _ => exact ⟨_, rfl, fun no => absurd rfl no⟩
  | .close, _ | .renew, _ => exact ⟨_, rfl, fun _ r unheld => by simp [unheld]⟩
  | .write, valid =>
    have fields : c.writeFieldsValid = true := valid
    exact ⟨_, by simp only [CommandKind.start, State.startWrite, fields]; rfl, fun _ r unheld => by simp [unheld]⟩
  | .fill, valid =>
    have fields : c.fillFieldsValid = true := valid
    exact ⟨_, by simp only [CommandKind.start, State.startFill, fields]; rfl, fun _ r unheld => by simp [unheld]⟩
  | .copy, valid =>
    simp only [CommandRecord.fieldsValid, Bool.and_eq_true, Option.isSome_iff_exists] at valid
    obtain ⟨⟨source, region⟩, fields⟩ := valid
    exact ⟨_, by simp only [CommandKind.start, State.startCopy, region, fields]; rfl, fun _ r unheld => by simp [unheld]⟩
  | .repair, _ => exact absurd rfl notRepair
  | .scan, _ => exact absurd rfl notScan

/-! ## A WRITE, COPY, FILL and SCAN past the checks -/

section Checked

variable {c : CommandRecord} {r source : Region} {s : State}

theorem State.startWrite_member (region : regionOf c.region = some r) (member : s.station = .member)
    (fields : c.writeFieldsValid = true) (held : s.heldUnlapsed r = true) :
    s.startWrite c =
      if s.isCurrent r then (s.place .originated (c.writeItem r)).proceed (c.runOn r .write) .write
      else s.endAtStart c .replicaNotCurrent := by
  rw [State.startWrite, fields, State.startInMember_member region member]
  cases h : s.isCurrent r <;> simp [held]

theorem State.startFill_member (region : regionOf c.region = some r) (member : s.station = .member)
    (fields : c.fillFieldsValid = true) (held : s.heldUnlapsed r = true) :
    s.startFill c = if s.isCurrent r then s.startChunks c r none else s.endAtStart c .replicaNotCurrent := by
  rw [State.startFill, fields, State.startInMember_member region member]
  cases h : s.isCurrent r <;> simp [held]

theorem State.startCopy_member (region : regionOf c.region = some r) (from_ : regionOf c.secondRegion = some source)
    (member : s.station = .member) (fields : c.copyFieldsValid = true) (held : s.heldUnlapsed r = true) :
    s.startCopy c =
      if s.isCurrent source then
        (if s.isCurrent r then s.startChunks c r (some source) else s.endAtStart c .replicaNotCurrent)
      else s.endAtStart c .staleSource := by
  simp only [State.startCopy, from_]
  rw [fields, State.startInMember_member region member]
  cases h : s.isCurrent source <;> cases h : s.isCurrent r <;> simp [held]

theorem State.startScan_valid (region : regionOf c.region = some r) (fields : c.scanFieldsValid = true) :
    s.startScan c =
      if s.isCurrent r then
        s.examineGroup (c.runOn r (.scan c.offset.toNat c.length.toNat false)) c.offset.toNat c.length.toNat false
      else s.endAtStart c .staleSource := by
  simp only [State.startScan, region, fields]
  cases h : s.isCurrent r <;> simp

end Checked

/-- Settles O21. -/
theorem commandsThatEndAtTheirStart : Obligations.CommandsThatEndAtTheirStart := by
  refine ⟨fun k t c rest s ready kind room => ?_, fun t c rest v s powered idle room none some => ?_⟩
  · have started := row_starts (t := t) ready kind
    -- A start that ends at once.
    have ends {status : Status} {v : Version} (start : k.start c (s.taken t rest) = (s.taken t rest).endAtStart c status)
        (version : s.versionAtStart c = v) : exec (k.row t) s = .next (s.endedAtStart t rest c status .none v) := by
      rw [started, start, State.taken_endAtStart ready.2.1 room, version]
    refine ⟨fun none => ends (k.start_of_none none) (State.versionAtStart_of_none none), fun r region => ?_⟩
    have version := State.versionAtStart_of_region (s := s) region
    refine ⟨fun invalid => ends (k.start_invalid invalid) version, fun valid notRepair notScan off => ends ?_ version,
      fun valid notOpen notRepair notScan member unheld => ends ?_ version, fun valid fill member held stale => ends ?_ version,
      fun source valid copy member held from_ => ⟨fun stale => ends ?_ version, fun current stale => ends ?_ version⟩,
      fun valid scan stale => ends ?_ version⟩
    · obtain ⟨f, start, -⟩ := k.start_inMember (s := s.taken t rest) valid notRepair notScan
      exact start.trans (State.startInMember_notMember region off)
    · obtain ⟨f, start, notOwner⟩ := k.start_inMember (s := s.taken t rest) valid notRepair notScan
      exact (start.trans (State.startInMember_member region member)).trans (notOwner notOpen r unheld)
    · subst fill
      exact (State.startFill_member (s := s.taken t rest) region member valid held).trans (if_neg (ne_true_of_eq_false stale))
    · subst copy
      have fields : c.copyFieldsValid = true := by simpa [CommandRecord.fieldsValid, from_] using valid
      exact (State.startCopy_member (s := s.taken t rest) region from_ member fields held).trans
        (if_neg (ne_true_of_eq_false stale))
    · subst copy
      have fields : c.copyFieldsValid = true := by simpa [CommandRecord.fieldsValid, from_] using valid
      exact ((State.startCopy_member (s := s.taken t rest) region from_ member fields held).trans (if_pos current)).trans
        (if_neg (ne_true_of_eq_false stale))
    · subst scan
      exact (State.startScan_valid (s := s.taken t rest) region valid).trans (if_neg (ne_true_of_eq_false stale))
  · have version : s.versionAtStart c = v := by
      cases region : regionOf c.region with
      | none => rw [State.versionAtStart_of_none region, none region]
      | some r => rw [State.versionAtStart_of_region region, some r region]
    have ends {p : QueuedCommand → Bool} {status : Status} {cancelled : Bool}
        (queue : s.host.commandQueue = { record := c, cancelled := cancelled } :: rest)
        (takes : p { record := c, cancelled := cancelled } = true) :
        whenPowered t (State.take p fun c s => s.endAtStart c status) s = .next (s.endedAtStart t rest c status .none v) := by
      rw [whenPowered_next powered, State.take_of_idle (s := s.advance t) idle queue takes, ← version,
        ← State.taken_endAtStart idle room]
      rfl
    exact ⟨fun queue unknown => ends queue (by simp [QueuedCommand.isKind, unknown]), fun queue => ends queue rfl⟩

/-! ## Frames that find a place (R155) -/

theorem State.placeAllWaiting_of_none {s : State} {q : QueueId} (none : s.liu.waiting q = []) : s.placeAllWaiting q = s := by
  rw [State.placeAllWaiting, none]
  rfl

/-- A frame is placed at once in a queue with room, where no request waits (R155). -/
theorem State.place_of_room {s : State} {q : QueueId} {i : Item} (room : (s.liu.queue q).length < 8)
    (none : s.liu.waiting q = []) : s.place q i = s.append q i := by
  have place : s.queueRoom q = true := decide_eq_true room
  simp only [State.place, State.placeAllWaiting_of_none none, place, if_true]

/-- The command goes into execution with its frame at the tail of the originated queue. -/
theorem State.taken_place_proceed {s : State} {t : Time} {rest : List QueuedCommand} {i : Item} {c : CommandRecord}
    {r : Region} {p₀ p : Progress} (free : s.originatedFree) (other : ∀ r, i ≠ .claim r none) :
    ((s.taken t rest).place .originated i).proceed (c.runOn r p₀) p =
      s.executingWith t rest { record := c, region := r, abort := false, progress := p } i := by
  rw [State.place_of_room (s := s.taken t rest) (q := .originated) free.1 free.2, State.append_of_ne other]
  rfl

/-! ## OPEN (R166, R171) -/

theorem State.heldUnlapsed_of_free {s : State} {r : Region} (free : (s.entry r).isFree = true) :
    s.heldUnlapsed r = false := by
  have state : (s.entry r).state = .free := by
    revert free
    cases h : (s.entry r).state <;> simp [Entry.isFree, EntryState.view, h]
  simp only [State.heldUnlapsed, state]

theorem State.startOpen_member {s : State} {c : CommandRecord} {r : Region} (region : regionOf c.region = some r)
    (member : s.station = .member) :
    s.startOpen c =
      if s.heldUnlapsed r then s.endAtStart c .already
      else if !s.isCurrent r then s.endAtStart c .replicaNotCurrent
      else s.attemptClaim (c.runOn r (.openClaimQueued (s.waitClock c) .none)) (s.waitClock c) .none :=
  State.startInMember_member region member

/-- The clock of an OPEN by its WAIT flag and the open wait limit (R166, R171; log 37). -/
theorem State.waitClock_cases {s : State} {c : CommandRecord} {k : Configuration} (config : s.host.config = some k) :
    (c.wait = false → s.waitClock c = .noWait) ∧
      (c.wait = true → 0 < k.openWaitLimit.toNat → s.waitClock c = .till (s.now + 1000000 * k.openWaitLimit.toNat)) ∧
      (c.wait = true → k.openWaitLimit.toNat = 0 → s.waitClock c = .expired) := by
  refine ⟨fun plain => ?_, fun wait some => ?_, fun wait zero => ?_⟩
  · simp [State.waitClock, plain]
  · simp [State.waitClock, wait, config, Nat.pos_iff_ne_zero.1 some, Config.milliseconds]
  · simp [State.waitClock, wait, config, zero]

/-- Settles O22. -/
theorem openPlacesOneClaim : Obligations.OpenPlacesOneClaim := by
  intro t c rest r k s ready kind region member config free current room originated
  let u := s.taken t rest
  have clock := State.waitClock_cases (s := u) (c := c) config
  refine ⟨u.waitClock c, (row_starts (k := .open) (t := t) ready kind).trans (congrArg Host.Outcome.next ?_), clock⟩
  have unheld : u.heldUnlapsed r = false := State.heldUnlapsed_of_free (s := u) free
  have current' : u.isCurrent r = true := current
  have free' : (u.entry r).isFree = true := free
  have room' : u.budgetRoom = true := room
  show u.startOpen c = _
  simp only [State.startOpen_member (s := u) region member, unheld, current', State.attemptClaim, CommandRecord.runOn, free',
    room', Bool.not_true, Bool.false_eq_true, if_false]
  rw [State.place_of_room (s := u) (q := .originated) originated.1 originated.2]
  rfl

/-- An attempt that no claim follows, by the clock of the OPEN (R166, R171). -/
theorem State.taken_openSetback {s : State} {t : Time} {rest : List QueuedCommand} {c : CommandRecord} {r : Region}
    {p : Progress} {why : Reason} (idle : s.unit = .idle) (room : s.host.completionQueue.length < 16)
    (plain : p.disturbed = false ∧ p.bytesDone = 0) :
    (s.taken t rest).openSetback (c.runOn r p) .noWait why =
        s.endedAtStart t rest c why.refusal why (s.replica r).version ∧
      (s.taken t rest).openSetback (c.runOn r p) .expired why =
        s.endedAtStart t rest c .waitExpired why (s.replica r).version ∧
      ∀ d, (s.taken t rest).openSetback (c.runOn r p) (.till d) why =
        { s with
          now := max s.now t
          unit := .executing { record := c, region := r, abort := false, progress := .openWaiting (.till d) why }
          host := { s.host with commandQueue := rest } } := by
  have ends (status : Status) : (s.taken t rest).endCommand (c.runOn r p) status why =
      s.endedAtStart t rest c status why (s.replica r).version := by
    rw [State.endCommand_of_room (s := s.taken t rest) room]
    simp only [State.endedAtStart, Running.completion, CommandRecord.runOn, plain, ← idle]
    rfl
  exact ⟨ends _, ends _, fun d => rfl⟩

/-- Settles O23. -/
theorem openWithoutAClaim : Obligations.OpenWithoutAClaim := by
  intro t c rest r k s ready kind region member config room
  let u := s.taken t rest
  have idle := ready.2.1
  obtain ⟨noWait, till, expired⟩ := State.waitClock_cases (s := u) (c := c) config
  have started : exec (.openRegion t) s = .next (u.startOpen c) := row_starts (k := .open) (t := t) ready kind
  rw [started, State.startOpen_member (s := u) region member]
  have ends {status : Status} : u.endAtStart c status = s.endedAtStart t rest c status .none (s.replica r).version := by
    rw [← State.versionAtStart_of_region (s := s) region]
    exact State.taken_endAtStart idle room
  -- An attempt that fails for the reason `why`.
  have fails {why : Reason} (attempt : ∀ clock, u.attemptClaim (c.runOn r (.openClaimQueued clock .none)) clock .none =
        u.openSetback (c.runOn r (.openClaimQueued clock .none)) clock why) :
      (c.wait = false → u.attemptClaim (c.runOn r (.openClaimQueued (u.waitClock c) .none)) (u.waitClock c) .none =
        s.endedAtStart t rest c why.refusal why (s.replica r).version) ∧
      (c.wait = true → 0 < k.openWaitLimit.toNat →
        u.attemptClaim (c.runOn r (.openClaimQueued (u.waitClock c) .none)) (u.waitClock c) .none =
        { s with
          now := max s.now t
          unit := .executing
            { record := c, region := r, abort := false
              progress := .openWaiting (.till (max s.now t + 1000000 * k.openWaitLimit.toNat)) why }
          host := { s.host with commandQueue := rest } }) ∧
      (c.wait = true → k.openWaitLimit.toNat = 0 →
        u.attemptClaim (c.runOn r (.openClaimQueued (u.waitClock c) .none)) (u.waitClock c) .none =
        s.endedAtStart t rest c .waitExpired why (s.replica r).version) := by
    refine ⟨fun plain => ?_, fun wait some => ?_, fun wait zero => ?_⟩
    · rw [noWait plain, attempt]
      exact (State.taken_openSetback idle room ⟨rfl, rfl⟩).1
    · rw [till wait some, attempt]
      exact (State.taken_openSetback idle room ⟨rfl, rfl⟩).2.2 _
    · rw [expired wait zero, attempt]
      exact (State.taken_openSetback idle room ⟨rfl, rfl⟩).2.1
  have same {a b : State} (eq : a = b) : (Host.Outcome.next a : Host.Outcome State Fault Refusal) = .next b := congrArg _ eq
  refine ⟨fun held => same ((if_pos held).trans ends), fun unheld stale => same ?_, fun unheld current busy => ?_,
    fun current free full => ?_⟩
  · have unheld' : u.heldUnlapsed r = false := unheld
    have stale' : u.isCurrent r = false := stale
    simp only [unheld', stale', Bool.false_eq_true, if_false, Bool.not_false, if_true, ends]
  · have unheld' : u.heldUnlapsed r = false := unheld
    have current' : u.isCurrent r = true := current
    have busy' : (u.entry r).isFree = false := busy
    simp only [unheld', current', Bool.false_eq_true, if_false, Bool.not_true]
    obtain ⟨a, b, d⟩ := fails (why := .notFree) fun clock => by
      simp only [State.attemptClaim, CommandRecord.runOn, busy', Bool.not_false, if_true]
    exact ⟨fun h => same (a h), fun h h' => same (b h h'), fun h h' => same (d h h')⟩
  · have unheld' : u.heldUnlapsed r = false := State.heldUnlapsed_of_free (s := u) free
    have current' : u.isCurrent r = true := current
    have free' : (u.entry r).isFree = true := free
    have full' : u.budgetRoom = false := full
    simp only [unheld', current', Bool.false_eq_true, if_false, Bool.not_true]
    obtain ⟨a, b, d⟩ := fails (why := .listFull) fun clock => by
      simp only [State.attemptClaim, CommandRecord.runOn, free', full', Bool.not_true, Bool.false_eq_true, if_false,
        Bool.not_false, if_true]
    exact ⟨fun h => same (a h), fun h h' => same (b h h'), fun h h' => same (d h h')⟩

/-! ## CLOSE, RENEW and WRITE (R172 to R174) -/

/-- Settles O24. -/
theorem holderCommandsPlaceOneFrame : Obligations.HolderCommandsPlaceOneFrame := by
  intro t c rest r s ready region member held free
  let u := s.taken t rest
  have held' : u.heldUnlapsed r = true := held
  refine ⟨fun kind => ?_, fun kind => ?_, fun kind fields => ⟨fun current => ?_, fun stale room => ?_⟩⟩
  · refine (row_starts (k := .close) ready kind).trans (congrArg _ ?_)
    refine (State.startInMember_member (s := u) region member).trans ((if_pos held').trans ?_)
    exact State.taken_place_proceed free (i := .release r true) nofun
  · refine (row_starts (k := .renew) ready kind).trans (congrArg _ ?_)
    refine (State.startInMember_member (s := u) region member).trans ((if_pos held').trans ?_)
    exact State.taken_place_proceed free (i := .renew r) nofun
  · refine (row_starts (k := .write) ready kind).trans (congrArg _ ?_)
    refine (State.startWrite_member (s := u) region member fields held').trans ((if_pos current).trans ?_)
    exact State.taken_place_proceed free (i := c.writeItem r) nofun
  · refine (row_starts (k := .write) ready kind).trans (congrArg _ ?_)
    refine (State.startWrite_member (s := u) region member fields held').trans ((if_neg (ne_true_of_eq_false stale)).trans ?_)
    rw [← State.versionAtStart_of_region (s := s) region]
    exact State.taken_endAtStart ready.2.1 room

/-! ## REPAIR (R94, R177) -/

/-- Settles O25. -/
theorem repairReturnsALostReplica : Obligations.RepairReturnsALostReplica := by
  intro t c rest r s ready kind region room
  let u := s.taken t rest
  have started : exec (.repairRegion t) s = .next (u.startRepair c) := row_starts (k := .repair) (t := t) ready kind
  have ends {status : Status} : u.endAtStart c status = s.endedAtStart t rest c status .none (s.replica r).version := by
    rw [← State.versionAtStart_of_region (s := s) region]
    exact State.taken_endAtStart ready.2.1 room
  rw [started]
  refine ⟨fun kept => ?_, fun unsynced => ?_, fun lost away => ?_⟩
  · have start : u.startRepair c = u.endAtStart c .done := by
      rcases kept with is | is <;> have is' : (u.replica r).condition = _ := is <;> simp only [State.startRepair, region, is']
    rw [start, ends]
  · have is : (u.replica r).condition = .unsynced := unsynced
    have start : u.startRepair c = u.endAtStart c .notMember := by simp only [State.startRepair, region, is]
    rw [start, ends]
  · have is : (u.replica r).condition = .lost := lost
    have start : u.startRepair c = (u.returnLost r).endAtStart c .done := by simp only [State.startRepair, region, is]
    have away' : (u.setReplica r { u.replica r with attempts := 0 }).inReception r = false := away
    have back (q : Region) : (u.returnLost r).replica q =
        if q = r then { s.replica r with condition := .stale, attempts := 0 } else s.replica q := by
      rw [State.returnLost_of_lost is]
      refine (State.replica_recondition _ r q .stale).trans ?_
      rw [State.replica_setReplica_self]
      split
      · rfl
      next ne => exact State.replica_setReplica_ne _ _ ne
    have tail : (u.returnLost r).transfer = { s.transfer with repairList := s.transfer.repairList ++ [r] } := by
      rw [State.returnLost_of_lost is]
      simp only [State.addChange_transfer, State.recondition, State.withTransfer_transfer, State.repairListAfter, away']
      rfl
    have queue : (u.returnLost r).host.completionQueue = s.host.completionQueue := by
      rw [State.returnLost_of_lost is]
      rfl
    have version : (u.returnLost r).versionAtStart c = (s.replica r).version := by
      rw [State.versionAtStart_of_region region, back, if_pos rfl]
    have posted : (u.returnLost r).endAtStart c .done = { u.returnLost r with
        unit := .idle
        host := { (u.returnLost r).host with completionQueue := (s.endedAtStart t rest c .done .none (s.replica r).version).host.completionQueue } } := by
      refine (State.post_of_room (by rw [queue]; exact room)).trans ?_
      rw [queue, version]
      rfl
    refine ⟨_, rfl, ?_⟩
    rw [start, posted]
    have directory : (u.returnLost r).directory = s.directory := by
      rw [State.returnLost_of_lost is]
      rfl
    have liu : (u.returnLost r).liu = s.liu := by
      rw [State.returnLost_of_lost is]
      rfl
    have told : r ∈ (u.returnLost r).host.changeSet := by
      rw [State.returnLost_of_lost is]
      exact mem_insertAscending_self r _
    exact ⟨(back r).trans (if_pos rfl), fun q ne => (back q).trans (if_neg ne), tail, told, rfl, directory, liu, rfl⟩

/-! ## COPY and FILL (R182 to R186) -/

/-- The chunk as R184 cuts it, in the words of the rule. -/
theorem chunkLength_eq (c : CommandRecord) (source : Option Region) (r : Region) (done : Nat) :
    chunkLength c source r done =
      if source = some r ∧ c.distance < c.length.toNat ∧ 1 ≤ c.distance then
        min (min 32 (c.length.toNat - done)) c.distance
      else min 32 (c.length.toNat - done) := by
  simp only [chunkLength, CommandRecord.overlap, Bool.and_eq_true, beq_iff_eq, decide_eq_true_eq, and_assoc]

/-- The first chunk of a COPY or FILL goes into the originated queue (R184 to R186). -/
theorem State.taken_startChunks {s : State} {t : Time} {rest : List QueuedCommand} {c : CommandRecord} {r : Region}
    (source : Option Region) (free : s.originatedFree) :
    (s.taken t rest).startChunks c r source =
      let len := chunkLength c source r 0
      let start := chunkStart c source 0 len
      s.executingWith t rest
        { record := c, region := r, abort := false
          progress := .chunk source 0 (c.offset.toNat + start) (c.secondOffset.toNat + start) len false }
        (.update r (c.offset.toNat + start) none (c.closeAfter && len == c.length.toNat)
          (match source with
            | some from_ => .replica from_ (c.secondOffset.toNat + start) len
            | none => .bytes (List.replicate len c.value))) := by
  exact State.taken_place_proceed free nofun

/-- Settles O26. -/
theorem blockCommandsPlaceTheirFirstChunk : Obligations.BlockCommandsPlaceTheirFirstChunk := by
  intro t c rest r s ready region member held current free
  let u := s.taken t rest
  refine ⟨fun kind fields => ?_, fun source kind fields from_ sourceCurrent => ?_⟩
  · refine (row_starts (k := .fill) ready kind).trans (congrArg _ ?_)
    refine (State.startFill_member (s := u) region member fields held).trans ((if_pos current).trans ?_)
    rw [State.taken_startChunks none free]
    have whole : (min 32 c.length.toNat == c.length.toNat) = decide (c.length.toNat ≤ 32) := by
      rw [Bool.eq_iff_iff, beq_iff_eq, decide_eq_true_eq]
      omega
    simp only [chunkLength_eq, chunkStart, Option.isSome_none, Bool.and_false, reduceCtorEq, false_and, if_false, Nat.sub_zero,
      Nat.add_zero, Bool.false_eq_true, whole]
  · refine (row_starts (k := .copy) ready kind).trans (congrArg _ ?_)
    refine (State.startCopy_member (s := u) region from_ member fields held).trans
      ((if_pos sourceCurrent).trans ((if_pos current).trans ?_))
    rw [State.taken_startChunks (some source) free]
    simp only [chunkLength_eq, chunkStart, CommandRecord.distance, Option.isSome_some, Bool.and_true, Option.some.injEq,
      Nat.sub_zero]

end Sys2Proof.Machine
end

section
/-! PROOF. The chunks of a COPY within one region (R184), and the groups of a SCAN (R194, R195). -/

-- One declaration at a time: side by side, the case splits of these proofs want more threads than the memory limit allows.
set_option Elab.async false

namespace Sys2Proof.Machine

/-! ## Copies as changes of what a region reads (R184) -/

/-- Byte `k` of a range is copied, in a region that reads as `v`. -/
def copyOne (source target : Nat) (v : Nat → Byte) (k : Nat) : Nat → Byte := Function.update v (target + k) (v (source + k))

/-- Bytes copied one at a time, none of them read after its place was written: a copy of the bytes as they were. -/
theorem foldl_copyOne {source target : Nat} {ks : List Nat} (fresh : ks.Pairwise fun j k => source + k ≠ target + j)
    (v : Nat → Byte) (a : Nat) :
    ks.foldl (copyOne source target) v a = if ∃ k ∈ ks, a = target + k then v (source + (a - target)) else v a := by
  induction ks generalizing v with
  | nil => simp
  | cons j rest ih =>
    obtain ⟨head, tail⟩ := List.pairwise_cons.1 fresh
    rw [List.foldl_cons, ih tail]
    by_cases later : ∃ k ∈ rest, a = target + k
    · obtain ⟨k, mem, rfl⟩ := later
      rw [if_pos ⟨k, mem, rfl⟩, if_pos ⟨k, List.mem_cons_of_mem _ mem, rfl⟩, copyOne, Nat.add_sub_cancel_left,
        Function.update_of_ne (head k mem)]
    · rw [if_neg later, copyOne]
      by_cases here : a = target + j
      · subst here
        rw [Function.update_self, if_pos ⟨j, List.mem_cons_self, rfl⟩, Nat.add_sub_cancel_left]
      · rw [Function.update_of_ne here, if_neg]
        rintro ⟨k, mem, eq⟩
        rcases List.mem_cons.1 mem with rfl | mem
        · exact here eq
        · exact later ⟨k, mem, eq⟩

/-- The same bytes copied in a memory. -/
theorem readByte_foldl_writeByte {source target : Nat} {ks : List Nat} (fits : ∀ k ∈ ks, target + k < 256) {m : Memory}
    (wf : Memory.wf m = true) :
    readByte (ks.foldl (fun m k => writeByte m (target + k) (readByte m (source + k))) m) =
      ks.foldl (copyOne source target) (readByte m) := by
  induction ks generalizing m with
  | nil => rfl
  | cons k rest ih =>
    have written : readByte (writeByte m (target + k) (readByte m (source + k))) = copyOne source target (readByte m) k := by
      funext a
      rw [readByte_writeByte wf, copyOne, Function.update_apply]
    rw [List.foldl_cons, List.foldl_cons, ← written]
    exact ih (fun k mem => fits k (List.mem_cons_of_mem _ mem)) (writeByte_wf wf (fits k List.mem_cons_self))

/-- Which byte of the range is the `i`-th to be copied. -/
def CommandRecord.copyIndex (c : CommandRecord) (i : Nat) : Nat := if c.descending then c.length.toNat - 1 - i else i

theorem copyByteByByte_eq (c : CommandRecord) (m : Memory) :
    copyByteByByte c m = ((List.range c.length.toNat).map c.copyIndex).foldl
      (fun m k => writeByte m (c.offset.toNat + k) (readByte m (c.secondOffset.toNat + k))) m := by
  rw [List.foldl_map]
  rfl

/-- A chunk is at least one byte, at most what remains, and within overlapping ranges at most the distance (R184). -/
theorem chunkLength_bounds (c : CommandRecord) (r : Region) {done : Nat} (left : done < c.length.toNat) :
    1 ≤ chunkLength c (some r) r done ∧ chunkLength c (some r) r done ≤ c.length.toNat - done ∧
      (c.offset.toNat ≠ c.secondOffset.toNat → c.distance < c.length.toNat → chunkLength c (some r) r done ≤ c.distance) := by
  rw [chunkLength_eq]
  simp only [CommandRecord.distance, true_and]
  split <;> omega

/-- One chunk copies its bytes as a copy byte by byte does (R184, R185). -/
theorem readByte_copyChunk {c : CommandRecord} {r : Region} {m : Memory} {done : Nat} (wf : Memory.wf m = true)
    (valid : c.copyFieldsValid = true) (left : done < c.length.toNat) :
    readByte (copyChunk c r done m) =
      ((List.range' done (chunkLength c (some r) r done)).map c.copyIndex).foldl
        (copyOne c.secondOffset.toNat c.offset.toNat) (readByte m) ∧
      Memory.wf (copyChunk c r done m) = true := by
  simp only [CommandRecord.copyFieldsValid, Bool.and_eq_true, decide_eq_true_eq] at valid
  obtain ⟨⟨⟨-, -⟩, sourceFits⟩, targetFits⟩ := valid
  obtain ⟨-, most, apart⟩ := chunkLength_bounds c r left
  have start : chunkStart c (some r) done (chunkLength c (some r) r done) =
      if c.descending then c.length.toNat - done - chunkLength c (some r) r done else done := by
    simp [chunkStart]
  generalize cut : chunkLength c (some r) r done = len at *
  have fits : c.offset.toNat + chunkStart c (some r) done len + len ≤ 256 := by
    rw [start]
    split <;> omega
  have fresh : ((List.range' done len).map c.copyIndex).Pairwise fun j k =>
      c.secondOffset.toNat + k ≠ c.offset.toNat + j := by
    refine List.pairwise_map.2 ((List.pairwise_lt_range' (s := done) (n := len)).imp_of_mem fun {i j} first second before => ?_)
    rw [List.mem_range'_1] at first second
    simp only [CommandRecord.copyIndex, CommandRecord.distance] at apart ⊢
    split <;> omega
  have places (a : Nat) : (∃ k ∈ (List.range' done len).map c.copyIndex, a = c.offset.toNat + k) ↔
      c.offset.toNat + chunkStart c (some r) done len ≤ a ∧ a < c.offset.toNat + chunkStart c (some r) done len + len := by
    simp only [List.mem_map, List.mem_range'_1, start, CommandRecord.copyIndex]
    constructor
    · rintro ⟨k, ⟨i, ⟨low, high⟩, rfl⟩, rfl⟩
      split <;> omega
    · intro within
      by_cases down : c.descending = true
      · simp only [down, if_true] at within ⊢
        exact ⟨a - c.offset.toNat, ⟨c.length.toNat - 1 - (a - c.offset.toNat), by omega, by omega⟩, by omega⟩
      · simp only [down, Bool.false_eq_true, if_false] at within ⊢
        exact ⟨a - c.offset.toNat, ⟨a - c.offset.toNat, by omega, rfl⟩, by omega⟩
  simp only [copyChunk, cut]
  refine ⟨funext fun a => ?_, writeBytes_wf wf (by rw [readBytes_length]; exact fits)⟩
  rw [foldl_copyOne fresh, if_congr (places a) rfl rfl, readByte_writeBytes wf (by rw [readBytes_length]; exact fits),
    readBytes_length]
  split
  next within =>
    rw [readBytes_getD _ (by omega)]
    congr 1
    omega
  next => rfl

/-- The chunks from `done` bytes on copy what is left as a copy byte by byte does (R187). -/
theorem readByte_copyInChunks {c : CommandRecord} {r : Region} (valid : c.copyFieldsValid = true) {n done : Nat} {m : Memory}
    (wf : Memory.wf m = true) (fuel : c.length.toNat ≤ done + n) :
    readByte (copyInChunks c r n done m) =
      ((List.range' done (c.length.toNat - done)).map c.copyIndex).foldl
        (copyOne c.secondOffset.toNat c.offset.toNat) (readByte m) := by
  induction n generalizing done m with
  | zero => simp [copyInChunks, Nat.sub_eq_zero_of_le (by simpa using fuel)]
  | succ n ih =>
    rw [copyInChunks]
    split
    next all => simp [Nat.sub_eq_zero_of_le all]
    next left =>
      obtain ⟨one, most, -⟩ := chunkLength_bounds c r (Nat.lt_of_not_le left)
      obtain ⟨chunk, wf'⟩ := readByte_copyChunk (r := r) wf valid (Nat.lt_of_not_le left)
      rw [ih wf' (by omega), chunk, ← List.foldl_append, ← List.map_append]
      have whole := List.range'_append_1 (s := done) (m := chunkLength c (some r) r done)
        (n := c.length.toNat - (done + chunkLength c (some r) r done))
      rw [whole]
      congr 3
      omega

/-- Settles O27. -/
theorem chunksCopyByteByByte : Obligations.ChunksCopyByteByByte := by
  intro c r m wf valid a
  have fields := valid
  simp only [CommandRecord.copyFieldsValid, Bool.and_eq_true, decide_eq_true_eq] at fields
  have fits : ∀ k ∈ (List.range c.length.toNat).map c.copyIndex, c.offset.toNat + k < 256 := by
    intro k mem
    obtain ⟨i, lt, rfl⟩ := List.mem_map.1 mem
    have lt' := List.mem_range.1 lt
    simp only [CommandRecord.copyIndex]
    split <;> omega
  rw [copyByteByByte_eq, readByte_foldl_writeByte fits wf, readByte_copyInChunks valid wf (by omega), Nat.sub_zero,
    ← List.range_eq_range']

/-! ## The groups of a SCAN (R194, R195) -/

/-- The byte `i` places on in the direction of the scan matches (R195). -/
def CommandRecord.hits (c : CommandRecord) (content : Memory) (next : Int) (i : Nat) : Prop :=
  readByte content (c.scanOffset next i).toNat &&& c.matchMask = c.value &&& c.matchMask

theorem CommandRecord.scanOffset_add (c : CommandRecord) (next : Int) (i j : Nat) :
    c.scanOffset (c.scanOffset next i) j = c.scanOffset next (i + j) := by
  unfold CommandRecord.scanOffset
  split <;> omega

theorem CommandRecord.hits_add (c : CommandRecord) (content : Memory) (next : Int) (i j : Nat) :
    c.hits content (c.scanOffset next i) j ↔ c.hits content next (i + j) := by
  simp only [CommandRecord.hits, CommandRecord.scanOffset_add]

/-- What a SCAN's record says of the `n` bytes from `next` on (R195). -/
structure ScanEnds (c : CommandRecord) (content : Memory) (next : Int) (n : Nat) (e : Completion) : Prop where
  found : ∀ i, i < n → c.hits content next i → (∀ j, j < i → ¬ c.hits content next j) →
    e.found = true ∧ e.exhausted = false ∧ e.position = c.scanOffset next i ∧ e.count = n - (i + 1)
  exhausted : (∀ i, i < n → ¬ c.hits content next i) →
    e.found = false ∧ e.exhausted = true ∧ e.position = c.scanOffset next n ∧ e.count = 0

/-- The eight bytes before hold no match. -/
theorem ScanEnds.after_group {c : CommandRecord} {content : Memory} {next : Int} {n : Nat} {e : Completion}
    (ends : ScanEnds c content (c.scanOffset next 8) (n - 8) e) (many : 8 < n)
    (none : ∀ i, i < 8 → ¬ c.hits content next i) : ScanEnds c content next n e := by
  refine ⟨fun i lt hit first => ?_, fun no => ?_⟩
  · have past : 8 ≤ i := Nat.le_of_not_lt fun low => none i low hit
    obtain ⟨k, rfl⟩ := Nat.exists_eq_add_of_le past
    obtain ⟨found, exhausted, position, count⟩ := ends.found k (by omega) ((c.hits_add content next 8 k).2 hit)
      fun j before => mt (c.hits_add content next 8 j).1 (first (8 + j) (by omega))
    exact ⟨found, exhausted, position.trans (c.scanOffset_add next 8 k), count.trans (by omega)⟩
  · obtain ⟨found, exhausted, position, count⟩ :=
      ends.exhausted fun i lt => mt (c.hits_add content next 8 i).1 (no (8 + i) (by omega))
    refine ⟨found, exhausted, position.trans ((c.scanOffset_add next 8 (n - 8)).trans ?_), count⟩
    congr 1
    omega

section Group

variable {s : State} {run : Running} {next : Int} {n : Nat} {d : Bool}

theorem CommandRecord.matchesByte_iff {c : CommandRecord} {content : Memory} {next : Int} {i : Nat} :
    c.matchesByte (readByte content (c.scanOffset next i).toNat) = true ↔ c.hits content next i := by
  simp only [CommandRecord.matchesByte, CommandRecord.hits, beq_iff_eq]

/-- A group that finds a match ends the command there (R195). -/
theorem State.examineGroup_found {i : Nat} (within : i < min 8 n)
    (hit : run.record.hits (s.replica run.region).content next i)
    (first : ∀ j, j < i → ¬ run.record.hits (s.replica run.region).content next j) :
    s.examineGroup run next n d = State.endCommand s { run with progress := .scan next n d } .done
      (count := n - (i + 1)) (position := run.record.scanOffset next i) (found := true) := by
  have search : (List.range (min 8 n)).find? (fun i => run.record.matchesByte
      (readByte (s.replica run.region).content (run.record.scanOffset next i).toNat)) = some i := by
    rw [List.find?_range_eq_some]
    refine ⟨CommandRecord.matchesByte_iff.2 hit, List.mem_range.2 within, fun j before => ?_⟩
    rw [Bool.not_eq_true', ← Bool.not_eq_true, CommandRecord.matchesByte_iff]
    exact first j before
  simp only [State.examineGroup, search]

/-- A group without a match ends the command after the last byte, and otherwise moves on (R195). -/
theorem State.examineGroup_none (none : ∀ i, i < min 8 n → ¬ run.record.hits (s.replica run.region).content next i) :
    s.examineGroup run next n d =
      if n ≤ 8 then State.endCommand s { run with progress := .scan next n d } .done (count := 0)
        (position := run.record.scanOffset next n) (exhausted := true)
      else s.proceed run (.scan (run.record.scanOffset next 8) (n - 8) d) := by
  have search : (List.range (min 8 n)).find? (fun i => run.record.matchesByte
      (readByte (s.replica run.region).content (run.record.scanOffset next i).toNat)) = Option.none := by
    rw [List.find?_eq_none]
    intro i mem
    rw [CommandRecord.matchesByte_iff]
    exact none i (List.mem_range.1 mem)
  simp only [State.examineGroup, search]
  by_cases few : n ≤ 8
  · rw [if_pos few, if_pos (by omega), Nat.min_eq_right few]
  · rw [if_neg few, if_neg (by omega), Nat.min_eq_left (by omega)]
    rfl

/-- The first match of a group, if it has one. -/
theorem exists_first_hit {p : Nat → Prop} {n : Nat} : (∃ i, i < n ∧ p i ∧ ∀ j, j < i → ¬ p j) ∨ ∀ i, i < n → ¬ p i := by
  classical
  by_cases some : ∃ i, i < n ∧ p i
  · have least := Nat.find_spec some
    refine .inl ⟨Nat.find some, least.1, least.2, fun j before hit => ?_⟩
    exact Nat.find_min some before ⟨before.trans least.1, hit⟩
  · exact .inr fun i lt hit => some ⟨i, lt, hit⟩

/-- A group ends the command with its record, or moves on past eight bytes without a match (R195). -/
theorem State.examineGroup_cases (room : s.host.completionQueue.length < 16) :
    (∃ e, s.examineGroup run next n d =
        { s with unit := .idle, host := { s.host with completionQueue := s.host.completionQueue ++ [e] } } ∧
      e.tag = run.record.tag ∧ e.status = .done ∧ e.version = (s.replica run.region).version ∧ e.disturbed = d ∧
      ScanEnds run.record (s.replica run.region).content next n e) ∨
    (8 < n ∧ (∀ i, i < 8 → ¬ run.record.hits (s.replica run.region).content next i) ∧
      s.examineGroup run next n d = s.proceed run (.scan (run.record.scanOffset next 8) (n - 8) d)) := by
  rcases exists_first_hit (p := run.record.hits (s.replica run.region).content next) (n := min 8 n) with
    ⟨i, lt, hit, first⟩ | none
  · refine .inl ⟨_, (State.examineGroup_found lt hit first).trans (State.endCommand_of_room room), rfl, rfl, rfl, rfl, ?_, ?_⟩
    · intro j lt' hit' first'
      have same : j = i := by
        rcases Nat.lt_trichotomy j i with before | rfl | after
        · exact absurd hit' (first j before)
        · rfl
        · exact absurd hit (first' i after)
      subst same
      exact ⟨rfl, rfl, rfl, rfl⟩
    · exact fun no => absurd hit (no i (by omega))
  · by_cases few : n ≤ 8
    · refine .inl ⟨_, (State.examineGroup_none none).trans ((if_pos few).trans (State.endCommand_of_room room)), rfl, rfl, rfl, rfl,
        fun i lt hit _ => absurd hit (none i (by omega)), fun _ => ⟨rfl, rfl, rfl, rfl⟩⟩
    · exact .inr ⟨by omega, fun i lt => none i (by omega), (State.examineGroup_none none).trans (if_neg few)⟩

end Group

theorem State.nextGroup_of_scan {s : State} {run : Running} {next : Int} {n : Nat} {d : Bool}
    (executing : s.unit = .executing run) (progress : run.progress = .scan next n d) :
    s.nextGroup = s.examineGroup run next n d := by
  simp only [State.nextGroup, State.running_iff.2 executing, progress]

/-- Groups with no SCAN in execution leave the command unit and the completion queue (R195; log 2). -/
theorem runGroups_of_idle {t : Time} {g : Nat} {s : State} (powered : s.powered = true) (idle : s.unit = .idle) :
    (runGroups t g s).unit = .idle ∧ (runGroups t g s).host.completionQueue = s.host.completionQueue := by
  induction g generalizing s with
  | zero => exact ⟨idle, rfl⟩
  | succ g ih =>
    have group : exec (.scanGroup t) s = .next (s.advance t) := by
      refine (whenPowered_next powered).trans (congrArg _ ?_)
      have none : (s.advance t).running = none := by
        have idle' : (s.advance t).unit = .idle := idle
        simp only [State.running, idle']
      simp only [State.nextGroup, none]
    rw [runGroups, group]
    exact ih (s := s.advance t) powered idle

/-- The groups of a SCAN with no event between them (R195). -/
theorem runGroups_scan {t : Time} {g : Nat} {s : State} {run : Running} {next : Int} {n : Nat} {d : Bool}
    (powered : s.powered = true) (executing : s.unit = .executing run) (progress : run.progress = .scan next n d)
    (room : s.host.completionQueue.length < 16) (some : 1 ≤ n) (enough : n ≤ 8 * g) :
    (runGroups t g s).unit = .idle ∧ ∃ e,
      (runGroups t g s).host.completionQueue = s.host.completionQueue ++ [e] ∧ e.tag = run.record.tag ∧ e.status = .done ∧
      e.version = (s.replica run.region).version ∧ e.disturbed = d ∧
      ScanEnds run.record (s.replica run.region).content next n e := by
  induction g generalizing s run next n with
  | zero => omega
  | succ g ih =>
    have group : exec (.scanGroup t) s = .next ((s.advance t).examineGroup run next n d) :=
      (whenPowered_next powered).trans (congrArg _ (State.nextGroup_of_scan (s := s.advance t) executing progress))
    rw [runGroups, group]
    rcases State.examineGroup_cases (s := s.advance t) (run := run) (next := next) (n := n) (d := d) room with
      ⟨e, ended, tag, status, version, disturbed, ends⟩ | ⟨many, none, goesOn⟩
    · rw [ended]
      obtain ⟨idle, queue⟩ := runGroups_of_idle (t := t) (g := g) (s := { s.advance t with
        unit := .idle, host := { s.host with completionQueue := s.host.completionQueue ++ [e] } }) powered rfl
      exact ⟨idle, e, queue, tag, status, version, disturbed, ends⟩
    · rw [goesOn]
      obtain ⟨idle, e, queue, tag, status, version, disturbed, ends⟩ :=
        ih (s := (s.advance t).proceed run (.scan (run.record.scanOffset next 8) (n - 8) d)) powered rfl rfl room
          (by omega) (by omega)
      exact ⟨idle, e, queue, tag, status, version, disturbed, ends.after_group many none⟩

/-- Settles O28. -/
theorem scanFindsTheFirstMatch : Obligations.ScanFindsTheFirstMatch := by
  refine ⟨fun t run next n d s powered executing progress room => ?_,
    fun t c rest r s ready kind region fields current room => ?_⟩
  · have group : exec (.scanGroup t) s = .next ((s.advance t).examineGroup run next n d) :=
      (whenPowered_next powered).trans (congrArg _ (State.nextGroup_of_scan (s := s.advance t) executing progress))
    have frame : ((s.advance t).examineGroup run next n d).liu = s.liu ∧
        ((s.advance t).examineGroup run next n d).replicas = s.replicas ∧
        ((s.advance t).examineGroup run next n d).directory = s.directory := by
      rcases State.examineGroup_cases (s := s.advance t) (run := run) (next := next) (n := n) (d := d) room with
        ⟨e, ended, -⟩ | ⟨-, -, goesOn⟩
      · rw [ended]
        exact ⟨rfl, rfl, rfl⟩
      · rw [goesOn]
        exact ⟨rfl, rfl, rfl⟩
    refine ⟨_, group, frame.1, frame.2.1, frame.2.2, fun i within hit first => ?_, fun none few => ?_, fun none many => ?_⟩
    · rw [State.examineGroup_found (s := s.advance t) within hit first, State.endCommand_of_room (s := s.advance t) room]
      exact ⟨rfl, _, rfl, rfl, rfl, rfl, rfl, rfl, rfl⟩
    · rw [State.examineGroup_none (s := s.advance t) none, if_pos few, State.endCommand_of_room (s := s.advance t) room]
      exact ⟨rfl, _, rfl, rfl, rfl, rfl, rfl, rfl, rfl⟩
    · rw [State.examineGroup_none (s := s.advance t) none, if_neg (Nat.not_le.2 many)]
      rfl
  · have valid := fields
    simp only [CommandRecord.scanFieldsValid, Bool.and_eq_true, decide_eq_true_eq] at valid
    obtain ⟨⟨one, most⟩, -⟩ := valid
    let u := s.taken t rest
    let run := c.runOn r (.scan c.offset.toNat c.length.toNat false)
    have started : exec (.scan t) s = .next (u.examineGroup run c.offset.toNat c.length.toNat false) :=
      (row_starts (k := .scan) ready kind).trans
        (congrArg _ ((State.startScan_valid (s := u) region fields).trans (if_pos current)))
    -- The whole scan, by what its record says.
    have whole : ∃ e, (runGroups t 32 (u.examineGroup run c.offset.toNat c.length.toNat false)).unit = .idle ∧
        (runGroups t 32 (u.examineGroup run c.offset.toNat c.length.toNat false)).host.completionQueue =
          s.host.completionQueue ++ [e] ∧ e.tag = c.tag ∧ e.status = .done ∧ e.version = (s.replica r).version ∧
        e.disturbed = false ∧ ScanEnds c (s.replica r).content c.offset.toNat c.length.toNat e := by
      rcases State.examineGroup_cases (s := u) (run := run) (next := c.offset.toNat) (n := c.length.toNat) (d := false) room with
        ⟨e, ended, tag, status, version, disturbed, ends⟩ | ⟨many, none, goesOn⟩
      · obtain ⟨idle, queue⟩ := runGroups_of_idle (t := t) (g := 32) (s := { u with
          unit := .idle, host := { u.host with completionQueue := u.host.completionQueue ++ [e] } }) ready.1 rfl
        rw [ended]
        exact ⟨e, idle, queue, tag, status, version, disturbed, ends⟩
      · rw [goesOn]
        obtain ⟨idle, e, queue, tag, status, version, disturbed, ends⟩ :=
          runGroups_scan (t := t) (g := 32)
            (s := u.proceed run (.scan (c.scanOffset c.offset.toNat 8) (c.length.toNat - 8) false)) ready.1 rfl rfl room
            (by omega) (by omega)
        exact ⟨e, idle, queue, tag, status, version, disturbed, ends.after_group many none⟩
    obtain ⟨e, idle, queue, tag, status, version, disturbed, ends⟩ := whole
    exact ⟨_, e, started, idle, queue, tag, status, version, disturbed, ends.found, ends.exhausted⟩

end Sys2Proof.Machine
end

section
/-! PROOF. The deadlines of the directory entries, of the budget list and of the objections (R5, R16, R17, R26, R30, R31, R39,
R158, R159), and the notices of the command unit that they hand (R164). -/

-- One declaration at a time: side by side, the case splits of these proofs want more threads than the memory limit allows.
set_option Elab.async false

namespace Sys2Proof.Machine

/-! ## The notices reach the command unit alone (R164) -/

namespace CommandOnly

variable {a s : State} {r : Region} {v : Version}

theorem noticeConfirmed (h : CommandOnly a s) : CommandOnly a (s.noticeConfirmed r v) := by
  unfold State.noticeConfirmed
  split
  · split
    · exact (h.place.endCommand.ite h.endCommand).ite h
    · exact h
  · exact h

theorem noticeContended (h : CommandOnly a s) : CommandOnly a (s.noticeContended r) := by
  unfold State.noticeContended
  split
  · split
    · exact h.openSetback.ite h
    · exact h
  · exact h

theorem noticeClaimPending (h : CommandOnly a s) : CommandOnly a (s.noticeClaimPending r) := by
  unfold State.noticeClaimPending
  split
  · split
    · exact h.proceed.ite h
    · exact h
  · exact h

theorem noticeObjected {reason : ObjectReason} (h : CommandOnly a s) : CommandOnly a (s.noticeObjected r reason) := by
  unfold State.noticeObjected
  split
  · split
    · exact h.openSetback.ite h
    · exact h
  · exact h

theorem noticeLapsed (h : CommandOnly a s) : CommandOnly a (s.noticeLapsed r) := by
  unfold State.noticeLapsed
  split
  · split
    case h_5 | h_6 | h_7 | h_8 => exact h
    all_goals exact h.endCommand.ite h
  · exact h

theorem noticeNoLongerHeld {cause : HoldingEnd} (h : CommandOnly a s) : CommandOnly a (s.noticeNoLongerHeld r cause) := by
  unfold State.noticeNoLongerHeld
  split
  · split
    · split
      · split <;> exact h.endCommand
      case h_5 | h_6 | h_7 | h_8 => exact h
      all_goals exact h.ite h.endCommand
    · exact h
  · exact h

theorem noticeRegionNotCurrent (h : CommandOnly a s) : CommandOnly a (s.noticeRegionNotCurrent r) := by
  unfold State.noticeRegionNotCurrent
  split
  · split
    · exact h.endCommand.ite h
    · exact h.cancelThenEnd.ite h
    · exact h.cancelThenEnd.ite (h.cancelThenEnd.ite h)
    · exact h.endCommand.ite h
    all_goals exact h
  · exact h

theorem withdrawHolding (h : CommandOnly a s) : CommandOnly a (s.withdrawHolding r) := h.cancel

end CommandOnly

/-! ## What each expiry does (R17, R26, R30, R31) -/

theorem State.changeEntry_silent (s : State) (r : Region) (e : Entry) : s.changeEntry r e false = s.setEntry r e := by
  simp only [State.changeEntry, Bool.false_and, Bool.false_eq_true, if_false]

/-- The entry of a claim that is confirmed (R26). -/
def State.confirmed (s : State) (r : Region) (c : Claim) : Entry :=
  { s.entry r with state := s.heldState c.station (s.now + s.leaseTime) }

theorem State.confirm_other {s : State} {r : Region} {c : Claim} (other : s.isSelf c.station = false) :
    s.confirm r c = s.changeEntry r (s.confirmed r c) true := by
  simp [State.confirm, State.confirmed, other]

theorem State.confirm_own {s : State} {r : Region} {c : Claim} (own : s.isSelf c.station = true) (stays : s.station ≠ .leaving) :
    s.confirm r c = (s.setEntry r (s.confirmed r c)).noticeConfirmed r (s.replica r).version := by
  have station := ((s.setEntry r (s.confirmed r c)).noticeConfirmed_lineOnly r (s.replica r).version).station
  simp only [State.confirmed] at station
  simp only [State.confirm, State.confirmed, own, Bool.not_true, State.changeEntry_silent, if_true]
  exact if_neg fun leaving => stays (station.symm.trans leaving)

/-- The entry after its holding is settled (R28 to R30, R35). -/
def State.settled (s : State) (r : Region) (why : SettleReason) (owner : Station) : Entry :=
  { s.entry r with state := .settling why (s.now + 300000), lastOwner := some owner }

theorem State.settle_commandOnly (s : State) (r : Region) (why : SettleReason) (owner : Station) (tell : Bool) :
    CommandOnly (s.changeEntry r (s.settled r why owner) tell) (s.settle r why owner tell) :=
  (CommandOnly.refl _).ifSo .withdrawHolding

theorem State.expireLease_commandOnly (s : State) (r : Region) (owner : Station) :
    CommandOnly (s.changeEntry r (s.settled r .expired owner) true) (s.expireLease r owner) :=
  (s.settle_commandOnly r .expired owner true).ifSo .noticeNoLongerHeld

theorem State.adopt_commandOnly (s : State) (r : Region) (o : Overheard) :
    CommandOnly (s.tellEntry r { s.entry r with
      state := s.heldState o.claim.station (s.now + s.leaseTime), overheard := none }) (s.adopt r o) :=
  (CommandOnly.refl _).ifSo .withdrawHolding

theorem State.confirmationExpires_due {s : State} {r : Region} {c : Claim} {d : Time}
    (claimed : (s.entry r).state = .claimed c d) (due : d ≤ s.now) : s.confirmationExpires r = s.confirm r c := by
  simp only [State.confirmationExpires, claimed, due, if_true]

theorem State.leaseExpires_due {s : State} {r : Region} {x : Station} {l : Time} {side : OwnerSide}
    (held : (s.entry r).state = .held x l side) (due : l ≤ s.now) : s.leaseExpires r = s.expireLease r x := by
  simp only [State.leaseExpires, held, due, if_true]

theorem State.leaseExpires_early {s : State} {r : Region} (early : ∀ x l side, (s.entry r).state = .held x l side → s.now < l) :
    s.leaseExpires r = s := by
  unfold State.leaseExpires
  split
  next x l side held => exact if_neg (Nat.not_le.2 (early x l side held))
  all_goals rfl

theorem State.overheardExpires_due {s : State} {r : Region} {o : Overheard} (present : (s.entry r).overheard = some o)
    (due : o.adoption ≤ s.now) : s.overheardExpires r = s.adopt r o := by
  simp only [State.overheardExpires, present, due, if_true]

theorem State.overheardExpires_early {s : State} {r : Region}
    (early : ∀ o, (s.entry r).overheard = some o → s.now < o.adoption) : s.overheardExpires r = s := by
  unfold State.overheardExpires
  split
  next o present => exact if_neg (Nat.not_le.2 (early o present))
  · rfl

theorem State.heldState_other {s : State} {x : Station} {l : Time} (other : s.isSelf x = false) :
    s.heldState x l = .held x l .notOwn := by
  simp [State.heldState, other]

theorem State.heldState_own {s : State} {x : Station} {l : Time} (own : s.isSelf x = true) :
    s.heldState x l = .held x l (.running (l - 1000000)) := by
  simp [State.heldState, own, show Config.ownerGuard = 1000000 from rfl]

/-- An expiry that writes one entry and may hand notices (R5). -/
theorem event_entry {t : Time} {f : State → State} {s v : State} (powered : s.powered = true) (stays : s.station ≠ .leaving)
    (station : v.station = s.station) (replicas : v.replicas = s.replicas) (only : CommandOnly v (f (s.advance t))) :
    ∃ s', event t f s = .next s' ∧ CommandOnly v s' := by
  have quiet : (f (s.advance t)).notResyncing :=
    fun leaving => absurd (station.symm.trans (only.station.symm.trans leaving)) stays
  obtain ⟨s', next, kept⟩ := event_commandOnly powered quiet
    (State.inStep_of_replicas (before := s.advance t) (only.replicas.trans replicas))
  exact ⟨s', next, only.trans kept⟩

/-- The lease expiry of O52. -/
theorem leaseExpiry_follows {t : Time} {r : Region} {s : State} (powered : s.powered = true) (stays : s.station ≠ .leaving) :
    ∃ a, exec (.leaseExpiry t r) s = .next a ∧ (∀ q, q ≠ r → a.entry q = s.entry q) ∧ a.replicas = s.replicas ∧
      (∀ x l side, (s.entry r).state = .held x l side → l ≤ max s.now t →
        a.entry r = { s.entry r with state := .settling .expired (max s.now t + 300000), lastOwner := some x } ∧
          r ∈ a.host.changeSet) ∧
      ∀ x l side, (s.entry r).state = .held x l side → max s.now t < l → a.directory = s.directory := by
  by_cases due : ∃ x l side, (s.entry r).state = .held x l side ∧ l ≤ max s.now t
  · obtain ⟨x, l, side, held, due⟩ := due
    have form := State.leaseExpires_due (s := s.advance t) held due
    have wrote := (s.advance t).changeEntry_stationKept r ((s.advance t).settled r .expired x) true
    obtain ⟨a, next, kept⟩ := event_entry (f := State.leaseExpires r) powered stays
      wrote.station wrote.replicas (form ▸ State.expireLease_commandOnly _ r x)
    refine ⟨a, next, fun q ne => ?_, kept.replicas.trans wrote.replicas, fun y l' side' held' _ => ?_,
      fun y l' side' held' early => ?_⟩
    · rw [kept.entry, State.entry_changeEntry, if_neg ne]
      rfl
    · rw [held, EntryState.held.injEq] at held'
      obtain ⟨rfl, -, -⟩ := held'
      refine ⟨?_, kept.changeSet ▸ State.mem_changeSet_changeEntry ?_⟩
      · rw [kept.entry, State.entry_changeEntry, if_pos rfl]
        rfl
      · have held' : ((s.advance t).entry r).state = .held x l side := held
        simp [Entry.view, State.settled, held', EntryState.view]
    · rw [held, EntryState.held.injEq] at held'
      exact absurd due (Nat.not_le.2 (held'.2.1 ▸ early))
  · have early : (s.advance t).leaseExpires r = s.advance t :=
      State.leaseExpires_early fun x l side held => Nat.lt_of_not_le fun past => due ⟨x, l, side, held, past⟩
    obtain ⟨a, next, kept⟩ := event_entry (f := State.leaseExpires r) (t := t) (v := s.advance t) powered stays rfl rfl
      (early.symm ▸ .refl _)
    exact ⟨a, next, fun q _ => kept.entry q, kept.replicas, fun x l side held past => absurd ⟨x, l, side, held, past⟩ due,
      fun _ _ _ _ _ => kept.directory⟩

/-- The adoption deadline of O52. -/
theorem overheardExpiry_follows {t : Time} {r : Region} {s : State} (powered : s.powered = true)
    (stays : s.station ≠ .leaving) :
    ∃ b, exec (.overheardClaimExpiry t r) s = .next b ∧ (∀ q, q ≠ r → b.entry q = s.entry q) ∧ b.replicas = s.replicas ∧
      (∀ o, (s.entry r).overheard = some o → o.adoption ≤ max s.now t →
        (∃ side, (b.entry r).state = .held o.claim.station (max s.now t + s.leaseTime) side) ∧
          (b.entry r).lastOwner = (s.entry r).lastOwner ∧ (b.entry r).overheard = none) ∧
      ∀ o, (s.entry r).overheard = some o → max s.now t < o.adoption → b.directory = s.directory := by
  by_cases due : ∃ o, (s.entry r).overheard = some o ∧ o.adoption ≤ max s.now t
  · obtain ⟨o, present, due⟩ := due
    have form := State.overheardExpires_due (s := s.advance t) present due
    obtain ⟨b, next, kept⟩ := event_entry (f := State.overheardExpires r) (t := t) (v := (s.advance t).tellEntry r _) powered
      stays rfl rfl
      (form ▸ State.adopt_commandOnly _ r o)
    refine ⟨b, next, fun q ne => ?_, kept.replicas, fun o' present' _ => ?_, fun o' present' early => ?_⟩
    · exact (kept.entry q).trans (State.entry_setEntry_ne (s.advance t) _ ne)
    · have same : o = o' := Option.some.inj (present.symm.trans present')
      have entry := (kept.entry r).trans (State.entry_setEntry_self (s.advance t) r _)
      rw [entry, ← same]
      exact ⟨⟨_, rfl⟩, rfl, rfl⟩
    · have same : o = o' := Option.some.inj (present.symm.trans present')
      exact absurd due (Nat.not_le.2 (same ▸ early))
  · have early : (s.advance t).overheardExpires r = s.advance t :=
      State.overheardExpires_early fun o present => Nat.lt_of_not_le fun past => due ⟨o, present, past⟩
    obtain ⟨b, next, kept⟩ := event_entry (f := State.overheardExpires r) (t := t) (v := s.advance t) powered stays rfl rfl
      (early.symm ▸ .refl _)
    exact ⟨b, next, fun q _ => kept.entry q, kept.replicas, fun o present past => absurd ⟨o, present, past⟩ due,
      fun _ _ _ => kept.directory⟩

/-- Settles O52. -/
theorem directoryDeadlines : Obligations.DirectoryDeadlines := by
  refine ⟨fun t d r c s powered stays claimed due => ?_, fun t r s powered stays => ?_⟩
  · have form := State.confirmationExpires_due (s := s.advance t) claimed due
    by_cases own : s.isSelf c.station = true
    · rw [State.confirm_own (s := s.advance t) own stays] at form
      have heard : CommandOnly ((s.advance t).setEntry r ((s.advance t).confirmed r c)) _ :=
        (CommandOnly.refl _).noticeConfirmed (r := r) (v := (s.replica r).version)
      obtain ⟨s', next, kept⟩ := event_entry (f := State.confirmationExpires r) (t := t)
        (v := (s.advance t).setEntry r ((s.advance t).confirmed r c)) powered stays rfl rfl (form ▸ heard)
      have entry := (kept.entry r).trans (State.entry_setEntry_self (s.advance t) r _)
      refine ⟨s', next, by rw [entry]; rfl,
        fun q ne => (kept.entry q).trans (State.entry_setEntry_ne (s.advance t) _ ne), kept.replicas,
        fun other => absurd own (by simp [other]), fun _ => ⟨?_, kept.changeSet, ?_⟩⟩
      · exact (congrArg Entry.state entry).trans (State.heldState_own (s := s.advance t) own)
      · rintro run clock executing rfl pending unaborted room
        -- No OPEN waits, so that the event ends with what the notice does.
        have concluded := State.conclude_eq (s := (s.advance t).confirmationExpires run.region) (before := s.advance t)
          (State.inStep_of_replicas (by rw [form]; exact heard.replicas))
          (State.noneWaits_of_unit executing (by rw [pending]; exact nofun))
          (by rw [form]; exact fun leaving => stays (heard.station.symm.trans leaving))
        have done : (s.advance t).confirmationExpires run.region =
            State.endCommand ((s.advance t).setEntry run.region ((s.advance t).confirmed run.region c)) run .done
              (version := (s.replica run.region).version) := by
          rw [form]
          have running : ((s.advance t).setEntry run.region ((s.advance t).confirmed run.region c)).running = some run :=
            State.running_iff.2 executing
          simp only [State.noticeConfirmed, running, pending, if_true, unaborted, Bool.false_eq_true, if_false]
          rfl
        have is : s' = (s.advance t).confirmationExpires run.region := by
          have next' := (event_concluded (f := State.confirmationExpires run.region) (t := t) powered).symm.trans next
          rw [concluded] at next'
          injection next' with eq
          exact eq.symm
        rw [is, done, State.endCommand_of_room (by exact room)]
        exact ⟨rfl, _, rfl, rfl, rfl, rfl⟩
    · have other : s.isSelf c.station = false := by simpa using own
      rw [State.confirm_other (s := s.advance t) other] at form
      have wrote := (s.advance t).changeEntry_stationKept r ((s.advance t).confirmed r c) true
      obtain ⟨s', next, kept⟩ := event_entry (f := State.confirmationExpires r) (t := t) powered stays
        wrote.station wrote.replicas (form.symm ▸ .refl _)
      have entry : s'.entry r = (s.advance t).confirmed r c := by rw [kept.entry, State.entry_changeEntry, if_pos rfl]
      refine ⟨s', next, by rw [entry]; rfl, fun q ne => ?_, kept.replicas.trans wrote.replicas, fun _ => ⟨?_, ?_⟩,
        fun own' => absurd own' own⟩
      · rw [kept.entry, State.entry_changeEntry, if_neg ne]
        rfl
      · rw [entry]
        exact State.heldState_other (s := s.advance t) other
      · refine kept.changeSet ▸ State.mem_changeSet_changeEntry ?_
        have claimed' : ((s.advance t).entry r).state = .claimed c d := claimed
        simp [Entry.view, State.confirmed, State.heldState, claimed', EntryState.view]
  · obtain ⟨a, nextA, othersA, replicasA, settles, stillA⟩ := leaseExpiry_follows (t := t) (r := r) powered stays
    obtain ⟨b, nextB, othersB, replicasB, adopts, stillB⟩ := overheardExpiry_follows (t := t) (r := r) powered stays
    exact ⟨a, b, nextA, nextB, fun q ne => ⟨othersA q ne, othersB q ne⟩, replicasA, replicasB, settles, stillA, adopts, stillB⟩

/-! ## The owner-side expiry (R31, R175) -/

theorem budgetRemoved_self (b : List BudgetEntry) : budgetRemoved b b = false := by
  simp [budgetRemoved]

/-- A waiting OPEN makes no attempt when no entry's view and no entry of the budget list changed (R170). -/
theorem State.retryOpen_of_same {s before : State} (views : ∀ r, (s.entry r).view = (before.entry r).view)
    (budget : s.budget = before.budget) : s.retryOpen before = s := by
  unfold State.retryOpen
  split
  next run0 run _ _ =>
    split
    · refine if_neg ?_
      rw [views run.region, budget, budgetRemoved_self]
      simp
    · rfl
  · rfl

theorem State.conclude_of_same {s before : State} (step : s.inStep before)
    (views : ∀ r, (s.entry r).view = (before.entry r).view) (budget : s.budget = before.budget)
    (stays : s.station ≠ .leaving) : s.conclude before = s := by
  rw [State.conclude, State.concludeFrom, State.requestResync_of_inStep step, State.retryOpen_of_same views budget,
    State.endReleases_of_not_leaving stays]

@[simp] theorem State.post_liu (s : State) (c : Completion) : (s.post c).liu = s.liu := by
  unfold State.post
  split <;> rfl

@[simp] theorem State.noticeLapsed_liu (s : State) (r : Region) : (s.noticeLapsed r).liu = s.liu := by
  have ended (run : Running) (b : Bool) : (if b then s.endCommand run .leaseLost else s).liu = s.liu := by
    split
    · exact State.post_liu _ _
    · rfl
  unfold State.noticeLapsed
  split
  · split
    case h_5 | h_6 | h_7 | h_8 => rfl
    all_goals exact ended _ _
  · rfl

/-- The lapse before its RELEASE is placed (R31). -/
def State.lapsed (s : State) (r : Region) (owner : Station) (lease : Time) : State :=
  ((s.setEntry r { s.entry r with state := .held owner lease .lapsed }).cancel .originated (Item.isWriteFor r)).noticeLapsed r

theorem State.lapsed_commandOnly (s : State) (r : Region) (owner : Station) (lease : Time) :
    CommandOnly (s.setEntry r { s.entry r with state := .held owner lease .lapsed }) (s.lapsed r owner lease) :=
  (CommandOnly.refl _).cancel.noticeLapsed

theorem State.lapsed_liu (s : State) (r : Region) (owner : Station) (lease : Time) :
    (s.lapsed r owner lease).liu = s.liu.cancel .originated (Item.isWriteFor r) := State.noticeLapsed_liu _ _

theorem State.lapse_eq (s : State) (r : Region) (owner : Station) (lease : Time) :
    s.lapse r owner lease =
      if (s.lapsed r owner lease).liu.holds .originated (Item.isReleaseFor r) then s.lapsed r owner lease
      else (s.lapsed r owner lease).placeRelease r false := rfl

theorem State.lapse_commandOnly (s : State) (r : Region) (owner : Station) (lease : Time) :
    CommandOnly (s.setEntry r { s.entry r with state := .held owner lease .lapsed }) (s.lapse r owner lease) :=
  (s.lapsed_commandOnly r owner lease).ite (s.lapsed_commandOnly r owner lease).place

theorem State.lapse_unit_host (s : State) (r : Region) (owner : Station) (lease : Time) :
    (s.lapse r owner lease).unit = (s.lapsed r owner lease).unit ∧
      (s.lapse r owner lease).host = (s.lapsed r owner lease).host := by
  rw [State.lapse_eq]
  split
  · exact ⟨rfl, rfl⟩
  · exact ⟨State.place_unit _ _ _, State.place_host _ _ _⟩

theorem dropUnbegun_ground (p : Item → Bool) (xs : List Queued) :
    dropUnbegun false p xs = xs.filter fun y => !p y.item := by
  cases xs <;> simp [dropUnbegun]

/-- A frame joins the frames that its queue holds (R155). -/
theorem Liu.holds_append {l : Liu} {q : QueueId} {p : Item → Bool} {x : Queued} :
    (l.setQueue q (l.queue q ++ [x])).holds q p = (l.holds q p || p x.item) := by
  simp only [Liu.holds, Liu.queue_setQueue_self, Liu.waiting_setQueue, List.any_append, List.any_cons, List.any_nil,
    Bool.or_false]
  rw [Bool.or_assoc, Bool.or_comm (p x.item), ← Bool.or_assoc]

/-- After the lapse no UPDATE or RENEW is left, and a RELEASE stands (R31). -/
theorem State.lapse_holds {s : State} {r : Region} {owner : Station} {lease : Time} (off : s.liu.transmitter = .off)
    (free : s.originatedFree) :
    (s.lapse r owner lease).liu.holds .originated (Item.isWriteFor r) = false ∧
      (s.lapse r owner lease).liu.holds .originated (Item.isReleaseFor r) = true := by
  have gone : (s.lapsed r owner lease).liu.holds .originated (Item.isWriteFor r) = false := by
    rw [State.lapsed_liu]
    exact Liu.holds_cancel (Liu.flightIs_of_off off _)
  rw [State.lapse_eq]
  split
  next stands => exact ⟨gone, stands⟩
  next =>
    have room : ((s.lapsed r owner lease).liu.queue .originated).length < 8 := by
      rw [State.lapsed_liu]
      exact (s.liu.cancel_shorter .originated _ .originated).trans_lt free.1
    have none : (s.lapsed r owner lease).liu.waiting .originated = [] := by
      rw [State.lapsed_liu, Liu.waiting_cancel, show s.liu.waiting .originated = [] from free.2]
      rfl
    rw [State.placeRelease, State.place_of_room room none, State.append_of_ne (by exact nofun)]
    have stands (p : Item → Bool) := Liu.holds_append (l := (s.lapsed r owner lease).liu) (q := .originated) (p := p)
      (x := { item := .release r false, marked := false })
    exact ⟨(stands _).trans (by simp [gone, Item.isWriteFor]), (stands _).trans (by simp [Item.isReleaseFor])⟩

/-- Settles O54. -/
theorem ownerSideExpiryLapsesTheHolding : Obligations.OwnerSideExpiryLapsesTheHolding := by
  intro t d l x r s powered member held due off free
  let u := s.advance t
  have heldU : (u.entry r).state = .held x l (.running d) := held
  have form : u.ownerSideExpires r = u.lapse r x l := by
    have due' : d ≤ u.now := due
    simp only [State.ownerSideExpires, heldU, due', if_true]
  have kept := u.lapse_commandOnly r x l
  have entry (q : Region) : (u.lapse r x l).entry q =
      if q = r then { s.entry r with state := .held x l .lapsed } else s.entry q :=
    (kept.entry q).trans (u.entry_setEntry r q _)
  have station : (u.lapse r x l).station = .member := kept.station.trans member
  have concluded : (u.lapse r x l).conclude u = u.lapse r x l := by
    refine State.conclude_of_same (State.inStep_of_replicas kept.replicas) (fun q => ?_) kept.budget
      (by rw [station]; exact nofun)
    rw [entry q]
    split
    next is =>
      subst is
      simp [Entry.view, heldU, EntryState.view]
      rfl
    · rfl
  obtain ⟨gone, stands⟩ := State.lapse_holds (s := u) (r := r) (owner := x) (lease := l) off free
  obtain ⟨unit, host⟩ := u.lapse_unit_host r x l
  refine ⟨u.lapse r x l, (event_concluded powered).trans (by rw [show State.ownerSideExpires r (s.advance t) = _ from form, concluded]),
    (entry r).trans (if_pos rfl), fun q ne => (entry q).trans (if_neg ne), kept.replicas, kept.changeSet, gone, stands, ?_⟩
  rintro run executing rfl write room
  rw [unit, host]
  have ended : u.lapsed run.region x l = State.endCommand
      ((u.setEntry run.region { u.entry run.region with state := .held x l .lapsed }).cancel .originated
        (Item.isWriteFor run.region)) run .leaseLost := by
    let v := (u.setEntry run.region { u.entry run.region with state := .held x l .lapsed }).cancel .originated
        (Item.isWriteFor run.region)
    have running : v.running = some run := State.running_iff.2 executing
    have ground : v.commandFlying run = false := Liu.flightIs_of_off (l := v.liu) off _
    show v.noticeLapsed run.region = _
    simp only [State.noticeLapsed, running, write, ground, Bool.not_false, Bool.and_true, decide_true, if_true]
    rfl
  rw [ended, State.endCommand_of_room (by exact room)]
  exact ⟨rfl, _, rfl, rfl, rfl, congrArg Progress.bytesDone write⟩

/-! ## The budget list and the objections (R39, R158, R159) -/

theorem State.raiseObjectionsBy_eq (n : Nat) (s : State) :
    LineOnly s (State.raiseObjectionsBy n s) ∧ (State.raiseObjectionsBy n s).liu = s.liu ∧
      (s.host.counters.objectionsWithdrawn.toNat + n < 65535 →
        (State.raiseObjectionsBy n s).host.counters.objectionsWithdrawn.toNat =
          s.host.counters.objectionsWithdrawn.toNat + n) := by
  induction n generalizing s with
  | zero => exact ⟨.refl s, rfl, fun _ => rfl⟩
  | succ n ih =>
    obtain ⟨line, liu, count⟩ := ih s.raiseObjectionsWithdrawn
    refine ⟨s.raiseObjectionsWithdrawn_lineOnly.trans line, liu, fun below => ?_⟩
    have raised : s.raiseObjectionsWithdrawn.host.counters.objectionsWithdrawn.toNat =
        s.host.counters.objectionsWithdrawn.toNat + 1 := by
      show (raiseCounter s.host.counters.objectionsWithdrawn).toNat = _
      unfold raiseCounter
      split
      next full => simp [full] at below
      next => bv_omega
    rw [raised] at count
    exact (count (by omega)).trans (by omega)

theorem State.removeAged_due {s : State} {e : BudgetEntry} {rest : List BudgetEntry} (head : s.budget = e :: rest)
    (due : e.arrival + 1000000 ≤ s.now) : s.removeAged = { s with budget := rest } := by
  have dead : e.live s.now = false := decide_eq_false (Nat.not_lt.2 due)
  simp only [State.removeAged, head, dead, Bool.false_eq_true, if_false]

theorem State.removeAged_early {s : State} {e : BudgetEntry} {rest : List BudgetEntry} (head : s.budget = e :: rest)
    (early : s.now < e.arrival + 1000000) : s.removeAged = s := by
  have live : e.live s.now = true := decide_eq_true early
  simp only [State.removeAged, head, live, if_true]

/-- Settles O55. -/
theorem budgetAndObjectionDeadlines : Obligations.BudgetAndObjectionDeadlines := by
  intro t s powered quiet
  refine ⟨fun e rest head due => ?_, fun e rest head early => ?_, fun off => ?_⟩
  · have form := State.removeAged_due (s := s.advance t) head due
    obtain ⟨s', next, kept⟩ := event_commandOnly (f := State.removeAged) (t := t) powered (by rw [form]; exact quiet)
      (State.inStep_of_replicas (by rw [form]))
    rw [form] at kept
    exact ⟨s', next, kept.budget, kept.directory, kept.replicas⟩
  · have form := State.removeAged_early (s := s.advance t) head early
    obtain ⟨s', next, kept⟩ := event_commandOnly (f := State.removeAged) (t := t) powered (by rw [form]; exact quiet)
      (State.inStep_of_replicas (by rw [form]))
    rw [form] at kept
    exact ⟨s', next, kept.budget⟩
  · let u := s.advance t
    let due (q : Queued) : Bool := q.item.objectionDue (max s.now t)
    have removed : u.liu.reply.length - (u.liu.reply.filter fun q => !due q).length = s.liu.reply.countP due := by
      have split := List.length_eq_countP_add_countP due (l := s.liu.reply)
      have rest : (s.liu.reply.filter fun q => !due q).length = s.liu.reply.countP fun a => decide ¬due a = true := by
        rw [List.countP_eq_length_filter]
        congr 1
        exact List.filter_congr fun q _ => by simp
      show s.liu.reply.length - (s.liu.reply.filter fun q => !due q).length = _
      omega
    have form : u.withdrawDueObjections =
        State.raiseObjectionsBy (s.liu.reply.countP due)
          (u.withLiu fun l => { l with reply := s.liu.reply.filter fun q => !due q }) := by
      have kept : dropUnbegun (u.liu.flying .reply) (Item.objectionDue u.now) u.liu.reply =
          s.liu.reply.filter fun q => !due q := by
        rw [Liu.flying_of_off (l := u.liu) off, dropUnbegun_ground]
        rfl
      simp only [State.withdrawDueObjections, kept]
      exact congrArg (State.raiseObjectionsBy · _) removed
    obtain ⟨line, liu, count⟩ := State.raiseObjectionsBy_eq (s.liu.reply.countP due)
      (u.withLiu fun l => { l with reply := s.liu.reply.filter fun q => !due q })
    rw [← form] at line liu count
    obtain ⟨s', next, kept⟩ := event_commandOnly (f := State.withdrawDueObjections) (t := t) powered
      (line.regionsKept.notResyncing quiet) (State.inStep_of_replicas line.replicas)
    refine ⟨s', next, kept.reply.trans (congrArg Liu.reply liu), fun below few => ?_, kept.directory.trans line.directory,
      kept.replicas.trans line.replicas⟩
    rw [kept.counters]
    have atMost : s.liu.reply.countP due ≤ s.liu.reply.length := List.countP_le_length
    refine count ?_
    show s.host.counters.objectionsWithdrawn.toNat + _ < 65535
    omega

end Sys2Proof.Machine
end

section
/-! PROOF. The deadlines of the transfer unit and of the membership controller (R35, R84, R88, R91, R92, R101, R102, R105, R108,
R116, R118, R121 to R125). -/

-- One declaration at a time: side by side, the case splits of these proofs want more threads than the memory limit allows.
set_option Elab.async false

namespace Sys2Proof.Machine

/-! ## The count of regions out of step (R54) -/

/-- The region is out of step: its replica is STALE or LOST (R54). -/
def State.behind (s : State) (r : Region) : Bool := (s.replica r).condition == .stale || (s.replica r).condition == .lost

theorem State.outOfStep_eq (s : State) : s.outOfStep = allRegions.countP s.behind := by
  simp only [State.outOfStep, State.staleCount, State.lostCount]
  induction allRegions with
  | nil => rfl
  | cons r rest ih =>
    simp only [List.countP_cons, ← ih, State.behind]
    by_cases stale : (s.replica r).condition = .stale
    · simp [stale]
      omega
    · by_cases lost : (s.replica r).condition = .lost
      · simp [lost]
        omega
      · simp [stale, lost]

theorem State.outOfStep_le {s t : State} (few : ∀ r, t.behind r = true → s.behind r = true) : t.outOfStep ≤ s.outOfStep := by
  rw [State.outOfStep_eq, State.outOfStep_eq]
  exact List.countP_mono_left fun r _ => few r

/-- One region more at most is out of step when the others are as before. -/
theorem State.outOfStep_le_succ {s t : State} {r : Region} (few : ∀ q, q ≠ r → t.behind q = true → s.behind q = true) :
    t.outOfStep ≤ s.outOfStep + 1 := by
  have one : allRegions.countP (· == r) ≤ 1 := List.nodup_iff_count_le_one.1 (List.nodup_finRange 64) r
  have both : allRegions.countP t.behind ≤ allRegions.countP s.behind + allRegions.countP (· == r) := by
    induction allRegions with
    | nil => exact le_rfl
    | cons q rest ih =>
      simp only [List.countP_cons]
      by_cases eq : q = r
      · simp only [eq, beq_self_eq_true, if_true]
        split <;> omega
      · have covered : (if t.behind q = true then 1 else 0) ≤ (if s.behind q = true then 1 else 0) := by
          by_cases behind : t.behind q = true
          · simp [behind, few q eq behind]
          · simp [behind]
        omega
  rw [State.outOfStep_eq, State.outOfStep_eq]
  omega

theorem State.behind_of_condition {s t : State} {r : Region} (same : (t.replica r).condition = (s.replica r).condition) :
    t.behind r = s.behind r := by
  simp only [State.behind, same]

/-! ## Repair (R84, R88, R91, R92) -/

theorem State.conclude_of_views {s before : State} (step : s.inStep before) (directory : s.directory = before.directory)
    (budget : s.budget = before.budget) (stays : s.station ≠ .leaving) : s.conclude before = s :=
  State.conclude_of_same step (fun r => congrArg Entry.view (State.entry_congr directory r)) budget stays

/-- The state after the refresh timer has expired for region `r` (R92). -/
def State.attempted (s : State) (r : Region) : State :=
  (s.withTransfer fun x => { x with refreshTimer := none }).setReplica r
    { s.replica r with attempts := (s.replica r).attempts + 1 }

theorem State.refreshTimedOut_again {s : State} {r : Region} (head : s.transfer.repairList.head? = some r)
    (few : (s.replica r).attempts < 2) :
    s.refreshTimedOut =
      ((s.attempted r).place .originated (.refreshReq r)).withTransfer fun x => { x with repairStage := .requestQueued } := by
  obtain ⟨rest, list⟩ := List.head?_eq_some_iff.1 head
  have again : (s.replica r).attempts + 1 < Config.refreshAttemptLimit := Nat.succ_lt_succ few
  have replica : (s.withTransfer fun x => { x with refreshTimer := none }).replica r = s.replica r := rfl
  simp only [State.refreshTimedOut, State.withTransfer_transfer, list, replica, again, if_true]
  rfl

theorem State.refreshTimedOut_lost {s : State} {r : Region} (head : s.transfer.repairList.head? = some r)
    (many : 2 ≤ (s.replica r).attempts) :
    s.refreshTimedOut =
      ((s.attempted r).changeCondition r .lost).withTransfer fun x =>
        { x with repairList := x.repairList.filter (· != r), repairStage := .idle } := by
  obtain ⟨rest, list⟩ := List.head?_eq_some_iff.1 head
  have last : ¬ (s.replica r).attempts + 1 < Config.refreshAttemptLimit := Nat.not_lt.2 (Nat.succ_le_succ many)
  have replica : (s.withTransfer fun x => { x with refreshTimer := none }).replica r = s.replica r := rfl
  simp only [State.refreshTimedOut, State.withTransfer_transfer, list, replica, last, if_false]
  rfl

theorem State.replica_attempted (s : State) (r q : Region) :
    (s.attempted r).replica q =
      if q = r then { s.replica r with attempts := (s.replica r).attempts + 1 } else s.replica q :=
  State.replica_setReplica _ r q _

/-- A STALE replica becomes LOST (R53, R69, R92). -/
theorem State.changeCondition_lost {s : State} {r : Region} (stale : (s.replica r).condition = .stale) :
    s.changeCondition r .lost = (s.recondition r .lost).addChange r := by
  rw [State.changeCondition_eq (by rw [stale]; exact nofun), if_neg (by rw [stale]; exact nofun)]

/-- The refresh timer of a MEMBER expires for the STALE head region of its repair list (R92). -/
theorem refreshTimer_follows {t d : Time} {r : Region} {s : State} (powered : s.powered = true) (member : s.station = .member)
    (timer : s.transfer.refreshTimer = some d) (due : d ≤ max s.now t) (head : s.transfer.repairList.head? = some r)
    (stale : (s.replica r).condition = .stale) :
    ∃ s', exec (.refreshTimerExpiry t) s = .next s' ∧ (s'.replica r).attempts = (s.replica r).attempts + 1 ∧
      s'.transfer.refreshTimer = none ∧ (∀ q, q ≠ r → s'.replica q = s.replica q) ∧
      ((s.replica r).attempts < 2 → s.originatedFree → (s'.replica r).condition = .stale ∧
        s'.transfer.repairStage = .requestQueued ∧ s'.transfer.repairList = s.transfer.repairList ∧
        s'.liu.originated = s.liu.originated ++ [{ item := .refreshReq r, marked := false }]) ∧
      ((s.replica r).attempts = 2 → (s'.replica r).condition = .lost ∧ s'.transfer.repairStage = .idle ∧
        r ∉ s'.transfer.repairList ∧ r ∈ s'.host.changeSet) := by
  let u := s.advance t
  have expires : u.refreshTimerExpires = u.refreshTimedOut := by
    have timer' : u.transfer.refreshTimer = some d := timer
    have due' : d ≤ u.now := due
    simp only [State.refreshTimerExpires, timer', due', if_true]
  have attempted (q : Region) : (u.attempted r).replica q =
      if q = r then { s.replica r with attempts := (s.replica r).attempts + 1 } else s.replica q := u.replica_attempted r q
  by_cases few : (s.replica r).attempts < 2
  · have form := expires.trans (State.refreshTimedOut_again (s := u) head few)
    have placed := (u.attempted r).place_lineOnly .originated (.refreshReq r)
    have replica (q : Region) : (u.refreshTimerExpires).replica q = (u.attempted r).replica q := by
      rw [form]
      exact placed.replica q
    have same : u.refreshTimerExpires.conclude u = u.refreshTimerExpires := by
      refine State.conclude_of_views (.inl (State.outOfStep_le fun q => ?_)) ?_ ?_ ?_
      · refine Eq.subst (motive := fun b => b = true → _) (State.behind_of_condition ?_).symm id
        rw [replica, attempted]
        split
        next is => exact is ▸ rfl
        next => rfl
      · rw [form]
        exact placed.directory
      · rw [form]
        exact placed.budget
      · rw [form]
        exact fun leaving => nomatch (placed.station.trans member).symm.trans leaving
    refine ⟨_, (event_concluded powered).trans (congrArg _ same), ?_, ?_, fun q ne => ?_, fun _ free => ?_,
      fun two => absurd few (by omega)⟩
    · rw [replica, attempted, if_pos rfl]
    · rw [form]
      exact congrArg Transfer.refreshTimer placed.transfer
    · rw [replica, attempted, if_neg ne]
    · rw [replica, attempted, if_pos rfl, form, State.place_of_room (s := u.attempted r) (q := .originated) free.1 free.2,
        State.append_of_ne (by exact nofun)]
      exact ⟨stale, rfl, rfl, rfl⟩
  · have lost : ((u.attempted r).changeCondition r .lost) = ((u.attempted r).recondition r .lost).addChange r :=
      State.changeCondition_lost (by rw [attempted, if_pos rfl]; exact stale)
    have form := expires.trans (State.refreshTimedOut_lost (s := u) head (Nat.le_of_not_lt few))
    rw [lost] at form
    have replica (q : Region) : u.refreshTimerExpires.replica q =
        if q = r then { s.replica r with attempts := (s.replica r).attempts + 1, condition := .lost } else s.replica q := by
      rw [form]
      refine ((u.attempted r).replica_recondition r q .lost).trans ?_
      rw [attempted, attempted, if_pos rfl]
      split <;> rfl
    have same : u.refreshTimerExpires.conclude u = u.refreshTimerExpires := by
      refine State.conclude_of_views (.inl (State.outOfStep_le fun q behind => ?_)) (by rw [form]; rfl) (by rw [form]; rfl)
        (by rw [form]; exact fun leaving => nomatch member.symm.trans leaving)
      have stale' : (u.replica r).condition = .stale := stale
      by_cases is : q = r
      · rw [is]
        simp [State.behind, stale']
      · simp only [State.behind, replica q, if_neg is] at behind ⊢
        exact behind
    refine ⟨_, (event_concluded powered).trans (congrArg _ same), ?_, ?_, fun q ne => ?_, fun few' => absurd few' few,
      fun _ => ⟨?_, ?_⟩⟩
    · rw [replica, if_pos rfl]
    · rw [form]
      rfl
    · rw [replica, if_neg ne]
    · rw [replica, if_pos rfl]
    · rw [form]
      refine ⟨rfl, fun listed => ?_, mem_insertAscending_self r _⟩
      simpa using (List.mem_filter.1 listed).2

/-- Settles O56. -/
theorem repairDeadlines : Obligations.RepairDeadlines := by
  intro t d r s powered member
  have quiet : (s.advance t).notResyncing := fun leaving => nomatch member.symm.trans leaving
  refine ⟨fun rec opened due => ?_, fun timer due head stale => refreshTimer_follows powered member timer due head stale,
    fun head idle closed free => ?_⟩
  · have form : (s.advance t).partDeadlineExpires = (s.advance t).abandonReception := by
      have opened' : (s.advance t).transfer.reception = some rec := opened
      have due' : rec.deadline ≤ (s.advance t).now := due
      simp only [State.partDeadlineExpires, opened', due', if_true]
    rw [State.abandonReception_eq (s := s.advance t) opened] at form
    obtain ⟨s', next, kept⟩ := event_commandOnly (f := State.partDeadlineExpires) (t := t) powered (by rw [form]; exact quiet)
      (State.inStep_of_replicas (by rw [form]; rfl))
    rw [form] at kept
    refine ⟨s', next, congrArg Transfer.reception kept.transfer, kept.replicas,
      congrArg Counters.transfersAbandoned kept.counters, fun refresh => ?_⟩
    exact (congrArg Transfer.repairList kept.transfer).trans (if_pos refresh)
  · let u := s.advance t
    have form : u.requestRepair =
        (u.append .originated (.refreshReq r)).withTransfer fun x => { x with repairStage := .requestQueued } := by
      obtain ⟨rest, list⟩ := List.head?_eq_some_iff.1 head
      have room : u.queueRoom .originated = true := decide_eq_true free.1
      have list' : u.transfer.repairList = r :: rest := list
      have member' : u.station = .member := member
      have idle' : u.transfer.repairStage = .idle := idle
      have closed' : u.transfer.reception = none := closed
      simp [State.requestRepair, State.placeAllWaiting_of_none (s := u) (q := .originated) free.2, list', member', idle',
        closed', room]
    rw [State.append_of_ne (by exact nofun)] at form
    refine (event_concluded (f := State.requestRepair) powered).trans (congrArg _ ?_)
    rw [show State.requestRepair (s.advance t) = _ from form]
    exact State.conclude_of_views (State.inStep_of_replicas rfl) rfl rfl
      (fun leaving => nomatch member.symm.trans leaving)

/-! ## The listen expiry (R101, R102, R116, R121) -/

/-- The own entry of the table takes the station's presence (R103). -/
theorem State.getElem_ownTable {s : State} {x : Station} (self : s.self = some x) (p : Presence) (y : Station) :
    (y = x → ((s.ownTable p)[y]).presence = p) ∧ (y ≠ x → (s.ownTable p)[y] = s.member y) := by
  refine ⟨?_, fun ne => ?_⟩
  · rintro rfl
    cases p <;> simp [State.ownTable, self, MemberEntry.absent]
  · have away : x.val ≠ y.val := fun eq => ne (Fin.ext eq.symm)
    simp [State.ownTable, self, away, State.member]

theorem State.originatedFree_congr {s t : State} (same : t.liu = s.liu) (free : s.originatedFree) : t.originatedFree := by
  rwa [State.originatedFree, same]

theorem State.originatedFree_cancel {s : State} (free : s.originatedFree) (p : Item → Bool) :
    (s.cancel .originated p).originatedFree := by
  refine ⟨(s.liu.cancel_shorter .originated p .originated).trans_lt free.1, ?_⟩
  show (s.liu.cancel .originated p).waiting .originated = []
  rw [Liu.waiting_cancel, show s.liu.waiting .originated = [] from free.2]
  rfl

theorem Liu.waiting_markFlight (l : Liu) (q q' : QueueId) (p : Item → Bool) : (l.markFlight q p).waiting q' = l.waiting q' := by
  unfold Liu.markFlight
  split
  · split
    · exact Liu.waiting_setQueue _ _ _ _
    · rfl
  · rfl

theorem State.originatedFree_markFlight {s : State} (free : s.originatedFree) (q : QueueId) (p : Item → Bool) :
    (s.withLiu fun l => l.markFlight q p).originatedFree :=
  ⟨(s.liu.markFlight_shorter q p .originated).trans_lt free.1, (Liu.waiting_markFlight _ q .originated p).trans free.2⟩

theorem State.originatedFree_noticeRegionNotCurrent {s : State} (free : s.originatedFree) (r : Region) :
    (s.noticeRegionNotCurrent r).originatedFree := by
  have post {u : State} (free : u.originatedFree) (c : Completion) : (u.post c).originatedFree :=
    State.originatedFree_congr (State.post_liu u c) free
  have ite {p : Prop} [Decidable p] {u v : State} (yes : u.originatedFree) (no : v.originatedFree) :
      (if p then u else v).originatedFree := by
    split
    · exact yes
    · exact no
  have ended (run : Running) (c : Completion) : ((s.cancelCommandFrame run).post c).originatedFree :=
    post (State.originatedFree_cancel free _) c
  unfold State.noticeRegionNotCurrent
  split
  · split
    · exact ite (post free _) free
    · exact ite (ended _ _) free
    · exact ite (ended _ _) (ite (ended _ _) free)
    · exact ite (post free _) free
    all_goals exact free
  · exact free

theorem State.originatedFree_addChanges {s : State} (free : s.originatedFree) (rs : List Region) :
    (s.addChanges rs).originatedFree := by
  rw [State.addChanges_eq]
  exact free

theorem State.originatedFree_unsyncReplicas {s : State} (free : s.originatedFree) : s.unsyncReplicas.originatedFree := by
  have told := State.originatedFree_addChanges (s := s.withReplicas s.unsynced) free
    (allRegions.filter fun r => (s.replica r).condition != .unsynced)
  rw [State.unsyncReplicas_eq]
  dsimp only
  split
  · split
    · exact State.originatedFree_noticeRegionNotCurrent told _
    · exact told
  · exact told

theorem State.setOwnEntry_liu (s : State) (p : Presence) : (s.setOwnEntry p).liu = s.liu := by
  rw [State.setOwnEntry_eq]
  rfl

theorem State.originatedFree_resetDirectory {s : State} (free : s.originatedFree) (e : Entry) :
    (s.resetDirectory e).originatedFree := by
  have withdrawn := State.originatedFree_cancel free fun i =>
    allRegions.any fun r => s.heldByOwn r && (i.isWriteFor r || i.isReleaseFor r)
  have cleared : ((s.cancel .originated fun i =>
      allRegions.any fun r => s.heldByOwn r && (i.isWriteFor r || i.isReleaseFor r)).withDirectory e).originatedFree := withdrawn
  exact State.originatedFree_addChanges cleared _

theorem Liu.waiting_orphanFlight (l : Liu) (q q' : QueueId) (p : Item → Bool) :
    (l.orphanFlight q p).waiting q' = l.waiting q' := by
  unfold Liu.orphanFlight
  split
  · split
    · exact Liu.waiting_setQueue _ _ _ _
    · rfl
  · rfl

theorem State.originatedFree_emptyTransfer {s : State} (free : s.originatedFree) : s.emptyTransfer.originatedFree := by
  have shorter := ((s.liu.cancel_shorter .reply Item.isJobFrame).trans (Liu.orphanFlight_shorter _ .reply Item.isJobFrame)).trans
    (Liu.markFlight_shorter _ .reply Item.isJobFrame)
  refine ⟨(shorter .originated).trans_lt free.1, ?_⟩
  show (((s.liu.cancel .reply Item.isJobFrame).orphanFlight .reply Item.isJobFrame).markFlight .reply Item.isJobFrame).waiting
    .originated = []
  rw [Liu.waiting_markFlight, Liu.waiting_orphanFlight]
  exact free.2

theorem State.originatedFree_setStation {s : State} (free : s.originatedFree) (st : StationState) :
    (s.setStation st).originatedFree := free

theorem State.setStation_stateChanged (s : State) (st : StationState) : (s.setStation st).host.stateChanged = true := rfl

/-- The station at its entry into JOINING before the directory, the replicas and the transfer unit are emptied (R121). -/
def State.joinBegun (s : State) : State :=
  (((if s.station = .leaving then s.noticeLeftMember else s).setOwnEntry .joining).withMembership fun m =>
    { m with
      presenceTimer := none, listenTimer := none, leaveCause := none
      join := some { attempt := 1, responder := none, runSet := [], gap := none, renewal := none } }).withLiu fun l =>
    (l.cancel .originated Item.isPresence).markFlight .originated Item.isPresence

theorem State.enterJoining_eq (s : State) :
    s.enterJoining =
      ((((s.joinBegun.resetDirectory Entry.unknown).unsyncReplicas).emptyTransfer).setStation .joining).placeAttempt := rfl

theorem State.originatedFree_joinBegun {s : State} (free : s.originatedFree) : s.joinBegun.originatedFree := by
  have before : (if s.station = .leaving then s.noticeLeftMember else s).originatedFree := by
    split
    · exact State.originatedFree_congr (CommandOnly.noticeLeftMember s).2 free
    · exact free
  exact State.originatedFree_markFlight (State.originatedFree_cancel
    (State.originatedFree_congr (State.setOwnEntry_liu _ .joining) before) _) _ _

/-- The entry into JOINING places its first attempt last, in a queue with no frame more than before (R121, R122). -/
theorem State.enterJoining_places (s : State) :
    ∃ v : State, s.enterJoining = v.placeAttempt ∧ v.host.stateChanged = true ∧ (s.originatedFree → v.originatedFree) :=
  ⟨_, s.enterJoining_eq, State.setStation_stateChanged _ _, fun free => State.originatedFree_setStation
    (State.originatedFree_emptyTransfer (State.originatedFree_unsyncReplicas
      (State.originatedFree_resetDirectory (State.originatedFree_joinBegun free) Entry.unknown))) _⟩

theorem State.placeAttempt_host (s : State) : s.placeAttempt.host = s.host := State.place_host _ _ _

/-- An attempt takes the tail of a queue with room (R122). -/
theorem State.placeAttempt_originated {s : State} (free : s.originatedFree) :
    s.placeAttempt.liu.originated =
      (s.liu.cancel .originated Item.isRenewal).originated ++ [{ item := .joinReq false, marked := false }] := by
  have free' := State.originatedFree_cancel (s := s.withMembership fun m => { m with join := m.join.map fun j => { j with gap := none } })
    free Item.isRenewal
  rw [State.placeAttempt, State.place_of_room (q := .originated) free'.1 free'.2, State.append_of_ne (by exact nofun)]
  rfl

/-- With no replica CURRENT an OPEN that waits places no claim (R170; log 49). -/
theorem State.retryOpen_liu_of_none_current {s before : State} (none : ∀ r, s.isCurrent r = false) :
    (s.retryOpen before).liu = s.liu := by
  unfold State.retryOpen
  split
  · split
    · split
      · rw [none, if_neg Bool.false_ne_true]
        exact State.post_liu _ _
      · rfl
    · rfl
  · rfl

/-- The entry into JOINING at a listen expiry (R101, R116, R121). -/
theorem State.enterJoining_listening {s : State} {x : Station} (listening : s.station = .listening) (self : s.self = some x)
    (free : s.originatedFree) :
    let s' := s.enterJoining.conclude s
    (s'.station = .joining ∧ (s'.member x).presence = .joining ∧ (∀ r, s'.entry r = Entry.unknown) ∧
      (∀ r, (s'.replica r).condition = .unsynced ∧ (s'.replica r).content = (s.replica r).content) ∧
      s'.membership.join = some { attempt := 1, responder := none, runSet := [], gap := none, renewal := none } ∧
      ∃ before, s'.liu.originated = before ++ [{ item := .joinReq false, marked := false }]) ∧
    s'.membership.listenTimer = none ∧ s'.budget = s.budget ∧ s'.host.stateChanged = true ∧
      ∀ y, y ≠ x → s'.member y = s.member y := by
  have line := LineOnly.of_core_eq s.core_enterJoining
  have station : s.enterJoining.station = .joining := line.station
  have step : s.enterJoining.inStep s := .inr (.inr (.inl (by rw [listening]; exact nofun)))
  have concluded := State.conclude_commandOnly (s := s.enterJoining) (before := s) (fun leaving => nomatch station.symm.trans leaving) step
  have whole := line.trans concluded.toLineOnly
  have table := State.getElem_ownTable (s := s.core) self .joining
  have replica (r : Region) : (s.enterJoining.conclude s).replica r = { s.replica r with condition := .unsynced, attempts := 0 } :=
    (whole.replica r).trans (s.core.replica_unsynced r)
  have liu : (s.enterJoining.conclude s).liu = s.enterJoining.liu := by
    have retried := s.enterJoining.retryOpen_lineOnly s
    have stays : (s.enterJoining.retryOpen s).station ≠ .leaving := by
      rw [retried.station, station]
      exact nofun
    rw [State.conclude, State.concludeFrom, State.requestResync_of_inStep step, State.endReleases_of_not_leaving stays]
    refine State.retryOpen_liu_of_none_current fun r => ?_
    have unsynced := (line.replica r).trans (s.core.replica_unsynced r)
    simp [State.isCurrent, unsynced]
  obtain ⟨v, places, changed, freed⟩ := s.enterJoining_places
  refine ⟨⟨whole.station, ?_, fun r => (whole.entry r).trans (State.entry_of_replicate rfl r), fun r => by rw [replica]; exact ⟨rfl, rfl⟩,
    congrArg Membership.join whole.membership, ?_⟩, whole.listenTimer, whole.budget, ?_, fun y ne => ?_⟩
  · rw [whole.member]
    exact (table x).1 rfl
  · rw [liu, places, State.placeAttempt_originated (freed free)]
    exact ⟨_, rfl⟩
  · rw [concluded.stateChanged, places, State.placeAttempt_host]
    exact changed
  · rw [whole.member]
    exact (table y).2 ne

/-- The alone start (R102). -/
theorem State.aloneStart_listening {s : State} {x : Station} (listening : s.station = .listening) (self : s.self = some x) :
    let s' := s.aloneStart.conclude s
    (s'.station = .member ∧ (s'.member x).presence = .member ∧ (∀ r, s'.entry r = Entry.fresh) ∧
      (∀ r, (s'.replica r).condition = .current ∧ (s'.replica r).version = 0 ∧ ∀ a, readByte (s'.replica r).content a = 0) ∧
      s'.membership.presenceTimer = some (s.now + 8000000)) ∧
    s'.membership.listenTimer = none ∧ s'.budget = s.budget ∧ s'.host.stateChanged = true ∧
      ∀ y, y ≠ x → s'.member y = s.member y := by
  have line := LineOnly.of_core_eq s.core_aloneStart
  have station : s.aloneStart.station = .member := line.station
  have concluded := State.conclude_commandOnly (s := s.aloneStart) (before := s) (fun leaving => nomatch station.symm.trans leaving)
    (.inr (.inr (.inl (by rw [listening]; exact nofun))))
  have whole := line.trans concluded.toLineOnly
  have table := State.getElem_ownTable (s := s.core) self .member
  refine ⟨⟨whole.station, ?_, fun r => (whole.entry r).trans (State.entry_of_replicate rfl r), fun r => ?_,
    congrArg Membership.presenceTimer whole.membership⟩, whole.listenTimer, whole.budget, concluded.stateChanged, fun y ne => ?_⟩
  · rw [whole.member]
    exact (table x).1 rfl
  · rw [(whole.replica r).trans (s.core.replica_fresh r)]
    exact ⟨rfl, rfl, readByte_nil⟩
  · rw [whole.member]
    exact (table y).2 ne

/-- Settles O57. -/
theorem listenExpiryJoinsOrStartsAlone : Obligations.ListenExpiryJoinsOrStartsAlone := by
  intro t d x s powered listening self timer due free off
  have expires : (s.advance t).listenTimerExpires =
      if s.membership.memberHeard then (s.advance t).enterJoining else (s.advance t).aloneStart := by
    have timer' : (s.advance t).membership.listenTimer = some d := timer
    have due' : d ≤ (s.advance t).now := due
    simp only [State.listenTimerExpires, timer', due', if_true]
    rfl
  have next := event_concluded (f := State.listenTimerExpires) (t := t) powered
  by_cases heard : s.membership.memberHeard = true
  · rw [expires, if_pos heard] at next
    obtain ⟨joins, timer', budget, changed, others⟩ := State.enterJoining_listening (s := s.advance t) listening self free
    exact ⟨_, next, timer', budget, changed, others, fun _ => joins, fun no => absurd heard (by rw [no]; exact Bool.false_ne_true)⟩
  · rw [expires, if_neg heard] at next
    obtain ⟨starts, timer', budget, changed, others⟩ := State.aloneStart_listening (s := s.advance t) listening self
    exact ⟨_, next, timer', budget, changed, others, fun is => absurd is heard, fun _ => starts⟩

/-! ## The departure of another station (R35, R36, R105, R107) -/

/-- The overheard claim of station `x` goes with it (R35, R36). -/
def Entry.forget (e : Entry) (x : Station) : Entry :=
  if e.overheard.any (fun o => o.claim.station == x) then { e with overheard := none } else e

/-- An entry after the notice that station `x` is absent or has left, at instant `now` (R35, R36). -/
def Entry.departed (e : Entry) (x : Station) (why : SettleReason) (now : Time) : Entry :=
  Entry.forget
    (match e.state with
      | .held o _ _ => if o = x then { e with state := .settling why (now + 300000), lastOwner := some x } else e
      | .claimed c _ => if c.station = x then { e with state := .free } else e
      | .unknown | .free | .settling _ _ => e) x

theorem Entry.forget_state (e : Entry) (x : Station) : (e.forget x).state = e.state ∧ (e.forget x).lastOwner = e.lastOwner := by
  unfold Entry.forget
  split <;> exact ⟨rfl, rfl⟩

/-- The departure by the state of the entry (R35, R36). -/
theorem Entry.departed_state (e : Entry) (x : Station) (why : SettleReason) (now : Time) :
    (e.heldBy x = true →
      (e.departed x why now).state = .settling why (now + 300000) ∧ (e.departed x why now).lastOwner = some x) ∧
    (∀ n k, e.state = .claimed { station := x, number := n } k → (e.departed x why now).state = .free) ∧
    (e.heldBy x = false → (∀ n k, e.state ≠ .claimed { station := x, number := n } k) →
      (e.departed x why now).state = e.state) := by
  obtain ⟨state, last, overheard⟩ := e
  unfold Entry.departed
  rw [(Entry.forget_state _ x).1, (Entry.forget_state _ x).2]
  cases state with
  | held o l side =>
    by_cases is : o = x
    · simp [is, Entry.heldBy, EntryState.view]
    · simp [is, Entry.heldBy, EntryState.view]
  | claimed c k =>
    by_cases is : c.station = x
    · refine ⟨fun held => (nomatch held), fun _ _ _ => by simp [is], fun _ other => ?_⟩
      exact absurd (by rw [← is]) (other c.number k)
    · refine ⟨fun held => (nomatch held), fun n k' claimed => ?_, fun _ _ => by simp [is]⟩
      injection claimed with eq
      exact absurd (congrArg Claim.station eq) is
  | unknown | free | settling => simp [Entry.heldBy, EntryState.view]

/-- What a departure leaves beside the directory. -/
structure DirectoryOnly (s t : State) : Prop extends StationKept s t where
  membership : t.membership = s.membership
  transfer : t.transfer = s.transfer
  budget : t.budget = s.budget

namespace DirectoryOnly

variable {a s t : State} {r : Region} {e : Entry} {tell : Bool}

theorem refl (s : State) : DirectoryOnly s s := ⟨⟨rfl, rfl, rfl, rfl, rfl, rfl⟩, rfl, rfl, rfl⟩

theorem trans (h : DirectoryOnly a s) (g : DirectoryOnly s t) : DirectoryOnly a t :=
  ⟨h.toStationKept.trans g.toStationKept, g.membership.trans h.membership, g.transfer.trans h.transfer, g.budget.trans h.budget⟩

theorem of_lineOnly (h : LineOnly s t) : DirectoryOnly s t :=
  ⟨h.regionsKept.toStationKept, h.membership, h.transfer, h.budget⟩

theorem setEntry (h : DirectoryOnly a s) : DirectoryOnly a (s.setEntry r e) :=
  h.trans ⟨s.setEntry_stationKept r e, rfl, rfl, rfl⟩

theorem changeEntry (h : DirectoryOnly a s) : DirectoryOnly a (s.changeEntry r e tell) := by
  have told : DirectoryOnly a ((s.setEntry r e).addChange r) :=
    h.setEntry.trans ⟨⟨rfl, rfl, rfl, rfl, rfl, rfl⟩, rfl, rfl, rfl⟩
  unfold State.changeEntry
  dsimp only
  split
  · exact told
  · exact h.setEntry

theorem settle {why : SettleReason} {x : Station} (h : DirectoryOnly a s) : DirectoryOnly a (s.settle r why x tell) :=
  h.changeEntry.trans (of_lineOnly (s.settle_commandOnly r why x tell).toLineOnly)

end DirectoryOnly

theorem State.entry_settle (s : State) (r q : Region) (why : SettleReason) (x : Station) (tell : Bool) :
    (s.settle r why x tell).entry q = if q = r then s.settled r why x else s.entry q :=
  ((s.settle_commandOnly r why x tell).entry q).trans (s.entry_changeEntry r q _ tell)

theorem State.departRegion_entry (s : State) (x : Station) (why : SettleReason) (r : Region) :
    DirectoryOnly s (s.departRegion x why r) ∧
      ∀ q, (s.departRegion x why r).entry q = if q = r then (s.entry r).departed x why s.now else s.entry q := by
  -- The first part of the step, by the state of the entry.
  have first : ∃ v e, s.departRegion x why r = (if (v.entry r).overheard.any (fun o => o.claim.station == x) then
        v.setEntry r { v.entry r with overheard := none } else v) ∧ DirectoryOnly s v ∧
      (∀ q, v.entry q = if q = r then e else s.entry q) ∧ (s.entry r).departed x why s.now = e.forget x := by
    unfold State.departRegion Entry.departed
    have same : ∀ q, s.entry q = if q = r then s.entry r else s.entry q := by
      intro q
      split
      next is => rw [is]
      next => rfl
    cases held : (s.entry r).state with
    | held o l side =>
      by_cases is : o = x
      · exact ⟨_, _, by simp only [is, if_true], (DirectoryOnly.refl s).settle, fun q => s.entry_settle r q why x true,
          by simp only [is, if_true]; rfl⟩
      · exact ⟨s, _, by simp only [is, if_false], .refl s, same, by simp only [is, if_false]⟩
    | claimed c k =>
      by_cases is : c.station = x
      · exact ⟨_, _, by simp only [is, if_true]; rfl, (DirectoryOnly.refl s).changeEntry, fun q => s.entry_changeEntry r q _ true,
          by simp only [is, if_true]⟩
      · exact ⟨s, _, by simp only [is, if_false], .refl s, same, by simp only [is, if_false]⟩
    | unknown | free | settling => exact ⟨s, _, rfl, .refl s, same, rfl⟩
  obtain ⟨v, e, form, kept, entries, forgets⟩ := first
  have here : v.entry r = e := (entries r).trans (if_pos rfl)
  rw [form, here, forgets]
  unfold Entry.forget
  split
  · refine ⟨kept.setEntry, fun q => ?_⟩
    rw [State.entry_setEntry]
    split
    · rfl
    next ne => exact (entries q).trans (if_neg ne)
  · exact ⟨kept, entries⟩

/-- The departure at every region of a list. -/
theorem State.foldl_departRegion (x : Station) (why : SettleReason) (rs : List Region) (nodup : rs.Nodup) (s : State) :
    DirectoryOnly s (rs.foldl (State.departRegion x why) s) ∧
      ∀ q, (rs.foldl (State.departRegion x why) s).entry q =
        if q ∈ rs then (s.entry q).departed x why s.now else s.entry q := by
  induction rs generalizing s with
  | nil => exact ⟨.refl s, fun q => by simp⟩
  | cons r rest ih =>
    obtain ⟨out, nodup⟩ := List.nodup_cons.1 nodup
    obtain ⟨kept, entries⟩ := s.departRegion_entry x why r
    obtain ⟨keptRest, entriesRest⟩ := ih nodup (s.departRegion x why r)
    refine ⟨kept.trans keptRest, fun q => ?_⟩
    rw [List.foldl_cons, entriesRest q, entries q, kept.now]
    by_cases is : q = r
    · subst is
      simp [out]
    · simp [is]

theorem State.serveNext_transferOnly (s : State) : TransferOnly s s.serveNext := by
  have placed (f : Job → Job) (i : Item) : TransferOnly s ((s.mapJobs f).place .reply i) :=
    TransferOnly.trans (t := s.mapJobs f) ⟨rfl, rfl, rfl, rfl, rfl, rfl, rfl, rfl, rfl⟩
      (State.place_lineOnly _ _ _).transferOnly
  unfold State.serveNext
  split
  · exact .refl s
  · split
    · exact placed _ _
    · unfold State.syncGoOn
      split <;> exact placed _ _
    · exact placed _ _
    · exact .refl s

theorem Job.isFor_setRefreshStage (x : Station) (r : Region) (q : Station) (st : RefreshStage) (job : Job) :
    (Job.setRefreshStage r q st job).isFor x = job.isFor x := by
  unfold Job.setRefreshStage
  split
  next is =>
    cases job with
    | refresh r' q' st' =>
      simp only [Job.isRefresh, Bool.and_eq_true, beq_iff_eq] at is
      simp [Job.isFor, is]
    | sync => cases is
  next => rfl

theorem Job.isFor_setSyncStage (x j : Station) (st : SyncStage) (job : Job) :
    (Job.setSyncStage j st job).isFor x = job.isFor x := by
  unfold Job.setSyncStage
  split
  next is =>
    cases job with
    | refresh => cases is
    | sync j' st' =>
      simp only [Job.isSync, beq_iff_eq] at is
      simp [Job.isFor, is]
  next => rfl

/-- The next job is served: its stage alone changes (R72, R78). -/
theorem State.serveNext_jobs (s : State) :
    ∃ f : Job → Job, s.serveNext.transfer.jobs = s.transfer.jobs.map f ∧ ∀ x job, (f job).isFor x = job.isFor x := by
  have placed (f : Job → Job) (i : Item) : ((s.mapJobs f).place .reply i).transfer.jobs = s.transfer.jobs.map f :=
    congrArg Transfer.jobs (State.place_lineOnly _ _ _).transfer
  unfold State.serveNext
  split
  · exact ⟨id, by simp, fun _ _ => rfl⟩
  · split
    · exact ⟨_, placed _ _, fun x job => Job.isFor_setRefreshStage x _ _ _ job⟩
    · unfold State.syncGoOn
      split <;> exact ⟨_, placed _ _, fun x job => Job.isFor_setSyncStage x _ _ job⟩
    · exact ⟨_, placed _ _, fun x job => Job.isFor_setSyncStage x _ _ job⟩
    · exact ⟨id, by simp, fun _ _ => rfl⟩

/-- Every job for a station is dropped (R79, R127). -/
theorem State.dropJobsFor_none (s : State) (x : Station) : ∀ job, job ∈ (s.dropJobsFor x).transfer.jobs → job.isFor x = false := by
  unfold State.dropJobsFor
  split
  · obtain ⟨f, jobs, same⟩ := ((s.dropFrames (Item.isJobFrameFor x)).removeJobs (Job.isFor x)).serveNext_jobs
    intro job mem
    have mem' : job ∈ ((s.dropFrames (Item.isJobFrameFor x)).removeJobs (Job.isFor x)).transfer.jobs.map f := jobs ▸ mem
    obtain ⟨job', kept, rfl⟩ := List.mem_map.1 mem'
    rw [same]
    simpa using (List.mem_filter.1 kept).2
  next none =>
    intro job mem
    simpa using fun is => none (List.any_eq_true.2 ⟨job, mem, is⟩)

theorem State.dropJobsFor_frame (s : State) (x : Station) :
    TransferOnly s (s.dropJobsFor x) ∧ (s.dropJobsFor x).replicas = s.replicas := by
  unfold State.dropJobsFor
  split
  · have removed : TransferOnly s ((s.dropFrames (Item.isJobFrameFor x)).removeJobs (Job.isFor x)) :=
      ⟨rfl, rfl, rfl, rfl, rfl, rfl, rfl, rfl, rfl⟩
    exact ⟨removed.trans (State.serveNext_transferOnly _), (State.serveNext_regionsKept _).replicas⟩
  · exact ⟨.refl s, rfl⟩

theorem State.abandonReception_frame (s : State) :
    TransferOnly s s.abandonReception ∧ s.abandonReception.replicas = s.replicas ∧
      s.abandonReception.transfer.jobs = s.transfer.jobs := by
  cases opened : s.transfer.reception with
  | none =>
    rw [State.abandonReception_none opened]
    exact ⟨.refl s, rfl, rfl⟩
  | some rec =>
    rw [State.abandonReception_eq opened]
    exact ⟨⟨rfl, rfl, rfl, rfl, rfl, rfl, rfl, rfl, rfl⟩, rfl, rfl⟩

/-- The transfers with station `x` end (R79, R89). -/
def State.endTransfersWith (s : State) (x : Station) : State :=
  if (s.dropJobsFor x).transfer.reception.any (fun rec => rec.source == x) then (s.dropJobsFor x).abandonReception
  else s.dropJobsFor x

theorem State.endTransfersWith_frame (s : State) (x : Station) :
    TransferOnly s (s.endTransfersWith x) ∧ (s.endTransfersWith x).replicas = s.replicas ∧
      ∀ job, job ∈ (s.endTransfersWith x).transfer.jobs → job.isFor x = false := by
  obtain ⟨dropped, replicas⟩ := s.dropJobsFor_frame x
  unfold State.endTransfersWith
  split
  · obtain ⟨ended, same, jobs⟩ := (s.dropJobsFor x).abandonReception_frame
    exact ⟨dropped.trans ended, same.trans replicas, fun job mem => s.dropJobsFor_none x job (jobs ▸ mem)⟩
  · exact ⟨dropped, replicas, s.dropJobsFor_none x⟩

theorem State.stationGone_eq (s : State) (x : Station) (why : SettleReason) :
    s.stationGone x why =
      let w := ((allRegions.foldl (State.departRegion x why) s).cancel .reply (Item.isObjectToStation x)).endTransfersWith x
      if w.station = .joining && w.isResponder x then w.joinFails false else w := rfl

/-- The notice that a station is gone, where it is not a joiner's responder (R35, R36, R79, R89). -/
theorem State.stationGone_follows {s : State} {x : Station} {why : SettleReason}
    (other : s.station = .joining → s.isResponder x = false) :
    StationKept s (s.stationGone x why) ∧ (s.stationGone x why).membership = s.membership ∧
      (∀ job, job ∈ (s.stationGone x why).transfer.jobs → job.isFor x = false) ∧
      ∀ r, (s.stationGone x why).entry r = (s.entry r).departed x why s.now := by
  obtain ⟨departed, entries⟩ := State.foldl_departRegion x why allRegions (List.nodup_finRange 64) s
  rw [State.stationGone_eq]
  generalize allRegions.foldl (State.departRegion x why) s = v at departed entries
  have withdrawn : LineOnly v (v.cancel .reply (Item.isObjectToStation x)) := State.cancel_lineOnly _ _ _
  obtain ⟨ended, replicas, none⟩ := (v.cancel .reply (Item.isObjectToStation x)).endTransfersWith_frame x
  have membership : ((v.cancel .reply (Item.isObjectToStation x)).endTransfersWith x).membership = s.membership :=
    (ended.membership.trans withdrawn.membership).trans departed.membership
  have stands : ¬ (decide (((v.cancel .reply (Item.isObjectToStation x)).endTransfersWith x).station = .joining) &&
      ((v.cancel .reply (Item.isObjectToStation x)).endTransfersWith x).isResponder x) = true := by
    simp only [State.station, State.isResponder, membership, Bool.and_eq_true, decide_eq_true_eq, not_and]
    intro joining
    simpa [State.isResponder] using other joining
  dsimp only
  rw [if_neg stands]
  refine ⟨departed.toStationKept.trans (withdrawn.regionsKept.toStationKept.trans ⟨ended.now, ended.powered, replicas, ended.config,
    congrArg Membership.station ended.membership, congrArg Membership.leaveCause ended.membership⟩), membership, none, fun r => ?_⟩
  exact (ended.entry r).trans ((withdrawn.entry r).trans ((entries r).trans (if_pos (List.mem_finRange r))))

/-! ## The membership deadlines (R35, R105, R108, R118, R123 to R125) -/

/-- A frame stands at the LIU after it is placed, in the queue or as a waiting request (R155). -/
theorem State.holds_place {s : State} {q : QueueId} {i : Item} {p : Item → Bool} (matches_ : p i = true)
    (other : ∀ r, i ≠ .claim r none) : (s.place q i).liu.holds q p = true := by
  unfold State.place
  dsimp only
  split
  · rw [State.append_of_ne other]
    exact Liu.holds_append.trans (by simp [matches_])
  · show Liu.holds (Liu.setWaiting _ q _) q p = true
    simp [Liu.holds, matches_]

theorem State.presenceTimerExpires_due {s : State} {d : Time} (timer : s.membership.presenceTimer = some d) (due : d ≤ s.now)
    (none : s.liu.holds .originated Item.isPresence = false) :
    s.presenceTimerExpires = (s.withMembership fun m => { m with presenceTimer := Option.none }).place .originated .presence := by
  simp only [State.presenceTimerExpires, timer, due, if_true]
  exact if_neg (Bool.not_eq_true _ ▸ none)

theorem State.renewalExpires_due {s : State} {rec : JoinRecord} {d : Time} (join : s.membership.join = some rec)
    (renewal : rec.renewal = some d) (due : d ≤ s.now) (none : s.liu.holds .originated Item.isJoinReq = false) :
    s.renewalExpires =
      (s.withMembership fun m => { m with join := m.join.map fun rec => { rec with renewal := Option.none } }).place .originated
        (.joinReq true) := by
  simp only [State.renewalExpires, join, Option.bind_some, renewal, due, if_true]
  exact if_neg (Bool.not_eq_true _ ▸ none)

theorem State.gapExpires_due {s : State} {rec : JoinRecord} {d : Time} (join : s.membership.join = some rec)
    (gap : rec.gap = some d) (due : d ≤ s.now) : s.gapExpires = s.joinFails true := by
  simp only [State.gapExpires, join, Option.bind_some, gap, due, if_true]

theorem State.joinFails_again {s : State} {rec : JoinRecord} {keep : Bool} (join : s.membership.join = some rec)
    (few : rec.attempt < 4) :
    s.joinFails keep = (s.withMembership fun m => { m with
      join := some { rec with attempt := rec.attempt + 1, responder := if keep then rec.responder else none } }).placeAttempt := by
  have again : rec.attempt < Config.joinAttemptLimit := few
  simp only [State.joinFails, join, again, if_true]

theorem State.joinFails_last {s : State} {rec : JoinRecord} {keep : Bool} (join : s.membership.join = some rec)
    (last : 4 ≤ rec.attempt) : s.joinFails keep = s.failJoining := by
  have past : ¬ rec.attempt < Config.joinAttemptLimit := Nat.not_lt.2 last
  simp only [State.joinFails, join, past, if_false]

/-- A deadline that places one frame and writes the membership controller alone ends with just that (R155). -/
theorem event_places {t : Time} {f : State → State} {s : State} {i : Item} {g : Membership → Membership}
    (powered : s.powered = true) (stays : s.station ≠ .leaving) (station : (g s.membership).station = s.station)
    (free : s.originatedFree) (other : ∀ r, i ≠ .claim r none)
    (form : f (s.advance t) = ((s.advance t).withMembership g).place .originated i) :
    ∃ s', event t f s = .next s' ∧ s'.membership = g s.membership ∧
      s'.liu.originated = s.liu.originated ++ [{ item := i, marked := false }] ∧ s'.directory = s.directory ∧
      s'.replicas = s.replicas := by
  rw [State.place_of_room (s := (s.advance t).withMembership g) (q := .originated) free.1 free.2, State.append_of_ne other] at form
  have same : (f (s.advance t)).conclude (s.advance t) = f (s.advance t) := by
    rw [form]
    exact State.conclude_of_views (State.inStep_of_replicas rfl) rfl rfl (fun leaving => stays (station.symm.trans leaving))
  refine ⟨_, (event_concluded powered).trans (congrArg _ same), ?_⟩
  rw [form]
  exact ⟨rfl, rfl, rfl, rfl⟩

/-- The absence deadline of a station that is no joiner's responder (R35, R105). -/
theorem absenceDeadline_follows {t d : Time} {x : Station} {s : State} (powered : s.powered = true) (due : d ≤ max s.now t)
    (absence : (s.member x).absence = some d) (quiet : s.notResyncing)
    (other : s.station = .joining → s.isResponder x = false) :
    ∃ s', exec (.absenceDeadlineExpiry t x) s = .next s' ∧ s'.member x = MemberEntry.absent ∧
      s'.replicas = s.replicas ∧ (∀ job, job ∈ s'.transfer.jobs → job.isFor x = false) ∧
      ∀ r, s'.entry r = (s.entry r).departed x .ownerAbsent (max s.now t) := by
  let u := (s.advance t).setMember x MemberEntry.absent
  have form : (s.advance t).absenceExpires x = u.stationGone x .ownerAbsent := by
    have absence' : ((s.advance t).member x).absence = some d := absence
    have due' : d ≤ (s.advance t).now := due
    simp only [State.absenceExpires, absence', due', if_true]
    rfl
  obtain ⟨kept, membership, none, entries⟩ := State.stationGone_follows (s := u) (x := x) (why := .ownerAbsent) other
  rw [← form] at kept membership none entries
  obtain ⟨s', next, concluded⟩ := event_commandOnly (f := State.absenceExpires x) (t := t) powered
    (kept.notResyncing quiet) (State.inStep_of_replicas kept.replicas)
  refine ⟨s', next, ?_, concluded.replicas.trans kept.replicas, fun job mem => none job (concluded.transfer ▸ mem), fun r =>
    (concluded.entry r).trans (entries r)⟩
  rw [concluded.member, State.member_congr membership]
  exact State.member_setMember_self _ _ _

/-- The gap deadline of a joiner (R124, R125). -/
theorem gapDeadline_follows {t d : Time} {rec : JoinRecord} {s : State} (powered : s.powered = true) (due : d ≤ max s.now t)
    (join : s.membership.join = some rec) (gap : rec.gap = some d) (joining : s.station = .joining) :
    ∃ s', exec (.gapDeadlineExpiry t) s = .next s' ∧
      (rec.attempt < 4 → s'.station = .joining ∧ s'.directory = s.directory ∧ s'.replicas = s.replicas ∧
        s'.membership.join = some { rec with attempt := rec.attempt + 1, gap := none } ∧
        s'.liu.holds .originated Item.isJoinReq = true) ∧
      (4 ≤ rec.attempt → s'.station = .listening ∧ s'.membership.faultCause = .joinFailed ∧ s'.membership.join = none ∧
        ∀ r, s'.entry r = Entry.unknown) := by
  let u := s.advance t
  have expires : u.gapExpires = u.joinFails true := State.gapExpires_due (s := u) join gap due
  by_cases few : rec.attempt < 4
  · let v := u.withMembership fun m => { m with
      join := some { rec with attempt := rec.attempt + 1, responder := rec.responder } }
    have form : u.gapExpires = v.placeAttempt := expires.trans (State.joinFails_again (s := u) join few)
    have line := LineOnly.of_core_eq v.core_placeAttempt
    have same : u.gapExpires.conclude u = u.gapExpires := by
      rw [form]
      exact State.conclude_of_views (State.inStep_of_replicas line.replicas) line.directory line.budget
        (fun leaving => nomatch (line.station.trans joining).symm.trans leaving)
    refine ⟨_, (event_concluded powered).trans (congrArg _ same), fun _ => ?_, fun many => absurd few (Nat.not_lt.2 many)⟩
    rw [form]
    exact ⟨line.station.trans joining, line.directory, line.replicas, congrArg Membership.join line.membership,
      State.holds_place rfl (by exact nofun)⟩
  · have form : u.gapExpires = u.failJoining := expires.trans (State.joinFails_last (s := u) join (Nat.le_of_not_lt few))
    have line := LineOnly.of_core_eq u.core_failJoining
    obtain ⟨s', next, concluded⟩ := event_commandOnly (f := State.gapExpires) (t := t) powered
      (by rw [show State.gapExpires (s.advance t) = _ from form]
          exact fun leaving => nomatch line.station.symm.trans leaving)
      (.inr (.inr (.inl (by rw [show (s.advance t).station = .joining from joining]; exact nofun))))
    rw [show State.gapExpires (s.advance t) = _ from form] at concluded
    have whole := line.trans concluded.toLineOnly
    exact ⟨s', next, fun few' => absurd few' few, fun _ => ⟨whole.station, whole.faultCause,
      congrArg Membership.join whole.membership, fun r => (whole.entry r).trans (State.entry_of_replicate rfl r)⟩⟩

/-- Settles O58. -/
theorem membershipDeadlines : Obligations.MembershipDeadlines := by
  refine ⟨fun t d s powered quiet due => ⟨fun timer free none idle stays => ?_, fun rec join renewal free none joining => ?_,
    fun timer => ?_⟩, fun t d s powered due => ⟨fun x absence quiet self other => ?_, fun rec join gap joining =>
      gapDeadline_follows powered due join gap joining⟩⟩
  · obtain ⟨s', next, membership, originated, directory, replicas⟩ := event_places (f := State.presenceTimerExpires)
      (g := fun m => { m with presenceTimer := Option.none }) powered stays rfl free (by exact nofun)
      (State.presenceTimerExpires_due (s := s.advance t) timer due none)
    exact ⟨s', next, congrArg Membership.presenceTimer membership, originated, directory, replicas⟩
  · obtain ⟨s', next, membership, originated, directory, replicas⟩ := event_places (f := State.renewalExpires)
      (g := fun m => { m with join := m.join.map fun rec => { rec with renewal := Option.none } }) powered
      (by rw [joining]; exact nofun) rfl free (by exact nofun)
      (State.renewalExpires_due (s := s.advance t) join renewal due none)
    exact ⟨s', next, (congrArg Membership.join membership).trans (congrArg (Option.map _) join), originated, directory, replicas⟩
  · have form : (s.advance t).isolationExpires = (s.advance t).enterListening := by
      have timer' : (s.advance t).membership.isolationTimer = some d := timer
      have due' : d ≤ (s.advance t).now := due
      simp only [State.isolationExpires, timer', due', if_true]
    rw [State.enterListening_eq] at form
    obtain ⟨s', next, concluded⟩ := event_commandOnly (f := State.isolationExpires) (t := t) powered
      (by rw [form]; exact fun leaving => nomatch leaving) (State.inStep_of_replicas (by rw [form]; rfl))
    rw [form] at concluded
    exact ⟨s', next, concluded.station, congrArg Membership.isolationTimer concluded.membership, concluded.faultCause,
      concluded.listenTimer, concluded.stateChanged⟩
  · obtain ⟨s', next, absent, replicas, none, entries⟩ := absenceDeadline_follows (t := t) powered due absence quiet other
    refine ⟨s', next, absent, replicas, none, fun r => ?_⟩
    rw [entries r]
    exact (s.entry r).departed_state x .ownerAbsent (max s.now t)

end Sys2Proof.Machine
end

section
/-! SUPPORT. What an arrival leaves before the blocks act: for another station's frame the LIU's ranking, the membership table
and the transfer jobs; for the echo of an own frame the queues and the own timers (R103, R104, R108, R123, R127, R142, R153). -/

-- One declaration at a time: side by side, the case splits of these proofs want more threads than the memory limit allows.
set_option Elab.async false

namespace Sys2Proof.Machine

/-! ## The reply queue alone -/

/-- The LIU beside the reply queue and the ranking (R142, R145). -/
def Liu.ownSide (l : Liu) : Liu :=
  { l with reply := [], replyWaiting := [], lastSender := none, fallback := false, activityEnd := 0 }

/-- `t` differs from `s` in the reply queue and the claim number alone, but for the ranking. -/
structure ReplyOnly (s t : State) : Prop extends LineOnly s t where
  host : t.host = s.host
  unit : t.unit = s.unit
  line : t.liu.ownSide = s.liu.ownSide

namespace ReplyOnly

variable {a s t : State} {i : Item}

theorem refl (s : State) : ReplyOnly s s := ⟨.refl s, rfl, rfl, rfl⟩

theorem trans (h : ReplyOnly a s) (g : ReplyOnly s t) : ReplyOnly a t :=
  ⟨h.toLineOnly.trans g.toLineOnly, g.host.trans h.host, g.unit.trans h.unit, g.line.trans h.line⟩

theorem append (h : ReplyOnly a s) : ReplyOnly a (s.append .reply i) := by
  refine h.trans ⟨s.append_lineOnly _ _, State.append_host _ _ _, State.append_unit _ _ _, ?_⟩
  unfold State.append
  split <;> rfl

theorem setWaiting {xs : List Item} (h : ReplyOnly a s) : ReplyOnly a (s.withLiu fun l => l.setWaiting .reply xs) :=
  h.trans ⟨s.withLiu_lineOnly _, rfl, rfl, rfl⟩

theorem placeWaiting (h : ReplyOnly a s) : ReplyOnly a (s.placeWaiting .reply) := by
  unfold State.placeWaiting
  split
  · exact h
  · split
    · exact h.setWaiting.append
    · exact h

theorem placeAllWaiting (h : ReplyOnly a s) : ReplyOnly a (s.placeAllWaiting .reply) := by
  unfold State.placeAllWaiting
  generalize s.liu.waiting .reply = items
  induction items generalizing s with
  | nil => exact h
  | cons _ rest ih => exact ih h.placeWaiting

theorem place (h : ReplyOnly a s) : ReplyOnly a (s.place .reply i) := by
  unfold State.place
  dsimp only
  split
  · exact h.placeAllWaiting.append
  · exact h.placeAllWaiting.setWaiting

end ReplyOnly

/-! ## Another station's frame (R104, R127, R142) -/

/-- The membership controller beside its table and the flag of R100. -/
def Membership.record (m : Membership) : Membership :=
  { m with table := Vector.replicate 16 MemberEntry.absent, memberHeard := false }

/-- The transfer unit beside its jobs. -/
def Transfer.besideJobs (x : Transfer) : Transfer := { x with jobs := [] }

/-- `t` differs from `s` in what another station's frame reaches before the blocks act: the ranking, the membership table, the
transfer jobs with the reply queue, and the claim number. -/
structure Heard (s t : State) : Prop extends RegionsKept s t where
  host : t.host = s.host
  unit : t.unit = s.unit
  budget : t.budget = s.budget
  record : t.membership.record = s.membership.record
  line : t.liu.ownSide = s.liu.ownSide
  beside : t.transfer.besideJobs = s.transfer.besideJobs

namespace Heard

variable {a s t : State}

theorem refl (s : State) : Heard s s := ⟨.refl s, rfl, rfl, rfl, rfl, rfl, rfl⟩

theorem trans (h : Heard a s) (g : Heard s t) : Heard a t :=
  ⟨h.toRegionsKept.trans g.toRegionsKept, g.host.trans h.host, g.unit.trans h.unit, g.budget.trans h.budget,
    g.record.trans h.record, g.line.trans h.line, g.beside.trans h.beside⟩

theorem ite {p : Prop} {_ : Decidable p} (h : Heard a s) (g : Heard a t) : Heard a (if p then s else t) := by
  split
  · exact h
  · exact g

theorem of_replyOnly (h : ReplyOnly s t) : Heard s t :=
  ⟨h.regionsKept, h.host, h.unit, h.budget, congrArg Membership.record h.membership, h.line,
    congrArg Transfer.besideJobs h.transfer⟩

theorem recordField {α : Type} (h : Heard s t) (f : Membership → α) : f t.membership.record = f s.membership.record :=
  congrArg f h.record

theorem lineField {α : Type} (h : Heard s t) (f : Liu → α) : f t.liu.ownSide = f s.liu.ownSide := congrArg f h.line

theorem besideField {α : Type} (h : Heard s t) (f : Transfer → α) : f t.transfer.besideJobs = f s.transfer.besideJobs :=
  congrArg f h.beside

theorem join (h : Heard s t) : t.membership.join = s.membership.join := h.recordField Membership.join
theorem faultCause (h : Heard s t) : t.membership.faultCause = s.membership.faultCause := h.recordField Membership.faultCause
theorem presenceTimer (h : Heard s t) : t.membership.presenceTimer = s.membership.presenceTimer :=
  h.recordField Membership.presenceTimer
theorem originated (h : Heard s t) : t.liu.originated = s.liu.originated := h.lineField Liu.originated
theorem originatedWaiting (h : Heard s t) : t.liu.originatedWaiting = s.liu.originatedWaiting := h.lineField Liu.originatedWaiting
theorem transmitter (h : Heard s t) : t.liu.transmitter = s.liu.transmitter := h.lineField Liu.transmitter
theorem failures (h : Heard s t) : t.liu.failures = s.liu.failures := h.lineField Liu.failures
theorem buffer (h : Heard s t) : t.transfer.buffer = s.transfer.buffer := h.besideField Transfer.buffer
theorem reception (h : Heard s t) : t.transfer.reception = s.transfer.reception := h.besideField Transfer.reception
theorem repairList (h : Heard s t) : t.transfer.repairList = s.transfer.repairList := h.besideField Transfer.repairList
theorem repairStage (h : Heard s t) : t.transfer.repairStage = s.transfer.repairStage := h.besideField Transfer.repairStage
theorem refreshTimer (h : Heard s t) : t.transfer.refreshTimer = s.transfer.refreshTimer := h.besideField Transfer.refreshTimer

theorem replica (h : Heard s t) (r : Region) : t.replica r = s.replica r := State.replica_congr h.replicas r

theorem isResponder (h : Heard s t) (x : Station) : t.isResponder x = s.isResponder x := by
  simp only [State.isResponder, h.join]

theorem leaseTime (h : Heard s t) : t.leaseTime = s.leaseTime := by simp only [State.leaseTime, h.host]

theorem budgetRoom (h : Heard s t) : t.budgetRoom = s.budgetRoom := by
  unfold State.budgetRoom State.budgetCount
  rw [h.budget, h.now]

theorem outOfStep (h : Heard s t) : t.outOfStep = s.outOfStep := by
  simp only [State.outOfStep, State.staleCount, State.lostCount, h.replica]

end Heard

theorem State.serveNext_heard (s : State) : Heard s s.serveNext := by
  have mapped (f : Job → Job) : Heard s (s.mapJobs f) := ⟨⟨⟨rfl, rfl, rfl, rfl, rfl, rfl⟩, rfl⟩, rfl, rfl, rfl, rfl, rfl, rfl⟩
  have placed (f : Job → Job) (i : Item) : Heard s ((s.mapJobs f).place .reply i) :=
    (mapped f).trans (.of_replyOnly (ReplyOnly.refl _).place)
  unfold State.serveNext
  split
  · exact .refl s
  · split
    · exact placed _ _
    · unfold State.syncGoOn
      split <;> exact placed _ _
    · exact placed _ _
    · exact .refl s

theorem Liu.ownSide_orphanFlight (l : Liu) (p : Item → Bool) : (l.orphanFlight .reply p).ownSide = l.ownSide := by
  unfold Liu.orphanFlight
  split
  · split <;> rfl
  · rfl

theorem State.dropJobs_heard (s : State) (jobs : Job → Bool) (frames : Item → Bool) : Heard s (s.dropJobs jobs frames) := by
  have line : ((s.liu.cancel .reply frames).orphanFlight .reply frames).ownSide = s.liu.ownSide :=
    Liu.ownSide_orphanFlight _ frames
  have dropped : Heard s ((s.dropFrames frames).removeJobs jobs) :=
    ⟨⟨⟨rfl, rfl, rfl, rfl, rfl, rfl⟩, rfl⟩, rfl, rfl, rfl, rfl, line, rfl⟩
  exact dropped.trans (State.serveNext_heard _)

theorem State.dropSync_heard (s : State) (j : Station) : Heard s (s.dropSync j) := (s.dropJobs_heard _ _).ite (.refl s)

theorem State.suppressSync_heard (s : State) (j : Station) : Heard s (s.suppressSync j) := (s.dropJobs_heard _ _).ite (.refl s)

theorem State.suppressRefresh_heard (s : State) (f : PartField) : Heard s (s.suppressRefresh f) :=
  (s.dropJobs_heard _ _).ite (.refl s)

/-- The sender's entry after its frame (R104, R107). -/
def State.senderEntry (s : State) (x : Station) (f : Frame) : MemberEntry :=
  if presenceAfter f (s.member x).presence = .absent then MemberEntry.absent
  else { presence := presenceAfter f (s.member x).presence, lastHeard := some s.now, absence := some (s.now + 30000000) }

/-- The station after another station's frame, before a sync job is dropped (R100, R104, R142). -/
def State.tabled (s : State) (x : Station) (f : Frame) : State :=
  let s := s.lineHeard x
  if s.station.listens then
    let s := s.setMember x (s.senderEntry x f)
    if s.station = .listening && provesMember f then s.withMembership fun m => { m with memberHeard := true } else s
  else s

theorem State.heardFrom_eq (s : State) (x : Station) (f : Frame) :
    s.heardFrom x f =
      if s.station.listens && endsJoining f then (s.tabled x f).dropSync x else s.tabled x f := by
  by_cases listens : s.station.listens = true
  · have listens' : (s.lineHeard x).station.listens = true := listens
    unfold State.heardFrom State.otherHeard State.tabled
    dsimp only
    rw [if_pos listens', if_pos listens', listens, Bool.true_and]
    rfl
  · have deaf : ¬ (s.lineHeard x).station.listens = true := listens
    unfold State.heardFrom State.otherHeard State.tabled
    dsimp only
    rw [if_neg deaf, if_neg deaf, if_neg (by simp [listens])]

theorem State.tabled_heard (s : State) (x : Station) (f : Frame) : Heard s (s.tabled x f) := by
  unfold State.tabled
  dsimp only
  split
  · split <;> exact ⟨⟨⟨rfl, rfl, rfl, rfl, rfl, rfl⟩, rfl⟩, rfl, rfl, rfl, rfl, rfl, rfl⟩
  · exact ⟨⟨⟨rfl, rfl, rfl, rfl, rfl, rfl⟩, rfl⟩, rfl, rfl, rfl, rfl, rfl, rfl⟩

theorem State.tabled_transfer_reply (s : State) (x : Station) (f : Frame) :
    (s.tabled x f).transfer = s.transfer ∧ (s.tabled x f).liu.reply = s.liu.reply ∧
      (s.tabled x f).liu.replyWaiting = s.liu.replyWaiting := by
  unfold State.tabled
  dsimp only
  split
  · split <;> exact ⟨rfl, rfl, rfl⟩
  · exact ⟨rfl, rfl, rfl⟩

theorem State.heardFrom_heard (s : State) (x : Station) (f : Frame) : Heard s (s.heardFrom x f) := by
  rw [State.heardFrom_eq]
  exact ((s.tabled_heard x f).trans (State.dropSync_heard _ x)).ite (s.tabled_heard x f)

theorem State.dropSync_of_idle {s : State} (none : s.transfer.jobs = []) (j : Station) : s.dropSync j = s := by
  simp [State.dropSync, none]

theorem State.suppressSync_of_idle {s : State} (none : s.transfer.jobs = []) (j : Station) : s.suppressSync j = s := by
  simp [State.suppressSync, none]

theorem State.suppressRefresh_of_idle {s : State} (none : s.transfer.jobs = []) (f : PartField) : s.suppressRefresh f = s := by
  simp [State.suppressRefresh, none]

/-- With no job another station's frame leaves the transfer unit and the reply queue too (R127). -/
theorem State.heardFrom_idle {s : State} (none : s.transfer.jobs = []) (x : Station) (f : Frame) :
    (s.heardFrom x f).transfer = s.transfer ∧ (s.heardFrom x f).liu.reply = s.liu.reply ∧
      (s.heardFrom x f).liu.replyWaiting = s.liu.replyWaiting := by
  have same := s.tabled_transfer_reply x f
  rw [State.heardFrom_eq, State.dropSync_of_idle (by rw [same.1, none])]
  split <;> exact same

theorem State.serveNext_membership (s : State) : s.serveNext.membership = s.membership := s.serveNext_transferOnly.membership

theorem State.dropSync_membership (s : State) (j : Station) : (s.dropSync j).membership = s.membership := by
  unfold State.dropSync
  split
  · exact State.serveNext_membership _
  · rfl

theorem State.member_heardFrom (s : State) (x y : Station) (f : Frame) : (s.heardFrom x f).member y = (s.tabled x f).member y := by
  rw [State.heardFrom_eq]
  split
  · exact State.member_congr (State.dropSync_membership _ _) y
  · rfl

/-- No third station's entry changes (R104). -/
theorem State.member_heardFrom_ne (s : State) {x y : Station} (ne : y ≠ x) (f : Frame) :
    (s.heardFrom x f).member y = s.member y := by
  rw [State.member_heardFrom]
  have other (e : MemberEntry) : (s.setMember x e).member y = s.member y := State.member_setMember_ne s e ne
  unfold State.tabled
  dsimp only
  split
  · split <;> exact other _
  · rfl

/-- The sender's entry (R104, R107). -/
theorem State.member_heardFrom_self {s : State} (listens : s.station.listens = true) (x : Station) (f : Frame) :
    (s.heardFrom x f).member x = s.senderEntry x f := by
  rw [State.member_heardFrom]
  have listens' : (s.lineHeard x).station.listens = true := listens
  unfold State.tabled
  dsimp only
  rw [if_pos listens']
  split <;> exact State.member_setMember_self _ _ _

/-! ## The echo of an own frame (R103, R108, R123, R153) -/

/-- The station at the echo of its own frame, before the blocks act (R142, R153). -/
def State.echoed (s : State) (x : Station) : State := ((s.lineHeard x).leaveQueue).ownHeard x

/-- The frames that an own echo makes needless: a PRESENCE and a renewal (R108, R123). -/
def StationState.needless : StationState → Item → Bool
  | .member, i | .leaving, i => i.isPresence || i.isRenewal
  | .joining, i => i.isRenewal
  | .unconfigured, _ | .listening, _ | .detached, _ | .isolated, _ => false

/-- A queue after its head, in flight, has left it (R153). -/
def leftQueue (q q' : QueueId) (rest xs : List Queued) : List Queued := if q = q' then rest else xs

/-- `t` is `s` after the echo of the frame at the head of queue `q`, followed there by `rest`. -/
structure Echo (q : QueueId) (rest : List Queued) (s t : State) : Prop extends RegionsKept s t where
  host : t.host = s.host
  unit : t.unit = s.unit
  budget : t.budget = s.budget
  transfer : t.transfer = s.transfer
  off : t.liu.transmitter = .off
  failures : t.liu.failures = 0
  reply : t.liu.reply = leftQueue q .reply rest s.liu.reply
  replyWaiting : t.liu.replyWaiting = s.liu.replyWaiting
  originated : t.liu.originated = (leftQueue q .originated rest s.liu.originated).filter fun y => !s.station.needless y.item
  originatedWaiting : t.liu.originatedWaiting = s.liu.originatedWaiting.filter fun i => !s.station.needless i
  faultCause : t.membership.faultCause = s.membership.faultCause
  presence : s.station = .member → t.membership.presenceTimer = some (s.now + 8000000)
  join : s.station ≠ .joining → t.membership.join = s.membership.join
  renewal : s.station = .joining →
    t.membership.join = s.membership.join.map fun rec => { rec with renewal := some (s.now + 8000000) }

/-- The LIU after the frame in flight has left its queue. -/
theorem State.leaveQueue_eq {s : State} {q : QueueId} {f : Frame} {i : Queued} {rest : List Queued} (flies : s.inFlight q f i rest) :
    s.leaveQueue = s.withLiu fun l => { (l.setQueue q rest) with transmitter := .off, failures := 0 } := by
  obtain ⟨sends, queue⟩ := flies
  simp only [State.leaveQueue, State.withLiu, sends, queue, List.tail_cons]

/-- The station with the frame gone from its queue, before its own timers move (R153). -/
structure Left (q : QueueId) (rest : List Queued) (s t : State) : Prop extends RegionsKept s t where
  host : t.host = s.host
  unit : t.unit = s.unit
  budget : t.budget = s.budget
  transfer : t.transfer = s.transfer
  off : t.liu.transmitter = .off
  failures : t.liu.failures = 0
  reply : t.liu.reply = leftQueue q .reply rest s.liu.reply
  replyWaiting : t.liu.replyWaiting = s.liu.replyWaiting
  originated : t.liu.originated = leftQueue q .originated rest s.liu.originated
  originatedWaiting : t.liu.originatedWaiting = s.liu.originatedWaiting
  record : t.membership.record = s.membership.record

theorem Left.recordField {α : Type} {q : QueueId} {rest : List Queued} {s t : State} (h : Left q rest s t) (f : Membership → α) :
    f t.membership.record = f s.membership.record := congrArg f h.record

theorem State.leaveQueue_left {s : State} {x : Station} {q : QueueId} {f : Frame} {i : Queued} {rest : List Queued}
    (flies : s.inFlight q f i rest) : Left q rest s (s.lineHeard x).leaveQueue := by
  rw [State.leaveQueue_eq (s := s.lineHeard x) flies]
  cases q <;>
    exact ⟨⟨⟨rfl, rfl, rfl, rfl, rfl, rfl⟩, rfl⟩, rfl, rfl, rfl, rfl, rfl, rfl, rfl, rfl, rfl, rfl, rfl⟩

theorem Left.setMember {q : QueueId} {rest : List Queued} {s t : State} (h : Left q rest s t) (x : Station) (e : MemberEntry) :
    Left q rest s (t.setMember x e) :=
  ⟨h.toRegionsKept.trans ⟨⟨rfl, rfl, rfl, rfl, rfl, rfl⟩, rfl⟩, h.host, h.unit, h.budget, h.transfer, h.off, h.failures, h.reply,
    h.replyWaiting, h.originated, h.originatedWaiting, h.record⟩

/-- The own entry's last-heard time (R103). -/
def State.ownNoted (s : State) (x : Station) : State :=
  if (s.member x).presence = .absent then s else s.setMember x { s.member x with lastHeard := some s.now }

theorem Left.ownNoted {q : QueueId} {rest : List Queued} {s t : State} (h : Left q rest s t) (x : Station) :
    Left q rest s (t.ownNoted x) := by
  unfold State.ownNoted
  split
  · exact h
  · exact h.setMember _ _

theorem State.ownHeard_eq (s : State) (x : Station) :
    s.ownHeard x =
      match (s.ownNoted x).station with
      | .member | .leaving =>
        ((s.ownNoted x).withMembership fun m =>
          { m with presenceTimer := some ((s.ownNoted x).now + Config.presenceInterval) }).cancel .originated fun i =>
          i.isPresence || i.isRenewal
      | .joining =>
        ((s.ownNoted x).withMembership fun m =>
          { m with join := m.join.map fun j => { j with renewal := some ((s.ownNoted x).now + Config.renewalInterval) } }).cancel
          .originated Item.isRenewal
      | .unconfigured | .listening | .detached | .isolated => s.ownNoted x := rfl

theorem State.echoed_echo {s : State} {x : Station} {q : QueueId} {f : Frame} {i : Queued} {rest : List Queued}
    (flies : s.inFlight q f i rest) : Echo q rest s (s.echoed x) := by
  have left := (State.leaveQueue_left (x := x) flies).ownNoted x
  rw [State.echoed]
  rw [State.ownHeard_eq]
  generalize (s.lineHeard x).leaveQueue.ownNoted x = v at left ⊢
  have join : v.membership.join = s.membership.join := left.recordField Membership.join
  have faultCause : v.membership.faultCause = s.membership.faultCause := left.recordField Membership.faultCause
  -- The withdrawal, with nothing in flight.
  have withdrawn (g : Membership → Membership) (p : Item → Bool) :
      (((v.withMembership g).cancel .originated p).liu.originated =
          (leftQueue q .originated rest s.liu.originated).filter fun y => !p y.item) ∧
        (((v.withMembership g).cancel .originated p).liu.originatedWaiting = s.liu.originatedWaiting.filter fun i => !p i) := by
    have same := Liu.cancel_of_off left.off .originated p
    exact ⟨left.originated ▸ congrArg Liu.originated same, left.originatedWaiting ▸ congrArg Liu.originatedWaiting same⟩
  rw [left.station]
  cases here : s.station with
  | member | leaving =>
    dsimp only
    obtain ⟨wrote, waiting⟩ := withdrawn (fun m => { m with presenceTimer := some (v.now + Config.presenceInterval) })
      fun i => i.isPresence || i.isRenewal
    exact ⟨left.toRegionsKept.trans ⟨⟨rfl, rfl, rfl, rfl, rfl, rfl⟩, rfl⟩, left.host, left.unit, left.budget, left.transfer, left.off,
      left.failures, left.reply, left.replyWaiting, by rw [here]; exact wrote, by rw [here]; exact waiting, faultCause,
      fun _ => congrArg (fun n : Time => some (n + 8000000)) left.now, fun _ => join, fun no => (nomatch here.symm.trans no)⟩
  | joining =>
    dsimp only
    obtain ⟨wrote, waiting⟩ := withdrawn
      (fun m => { m with join := m.join.map fun j => { j with renewal := some (v.now + Config.renewalInterval) } }) Item.isRenewal
    refine ⟨left.toRegionsKept.trans ⟨⟨rfl, rfl, rfl, rfl, rfl, rfl⟩, rfl⟩, left.host, left.unit, left.budget, left.transfer, left.off,
      left.failures, left.reply, left.replyWaiting, by rw [here]; exact wrote, by rw [here]; exact waiting, faultCause,
      fun no => (nomatch here.symm.trans no), fun no => absurd here no, fun _ => ?_⟩
    show v.membership.join.map _ = _
    rw [join, left.now]
    rfl
  | unconfigured | listening | detached | isolated =>
    dsimp only
    exact ⟨left.toRegionsKept, left.host, left.unit, left.budget, left.transfer, left.off, left.failures, left.reply,
      left.replyWaiting, by rw [left.originated, here]; exact (List.filter_eq_self.2 fun _ _ => rfl).symm,
      by rw [left.originatedWaiting, here]; exact (List.filter_eq_self.2 fun _ _ => rfl).symm, faultCause,
      fun no => (nomatch here.symm.trans no), fun _ => join, fun no => (nomatch here.symm.trans no)⟩

/-! ## The arrival rows (R142, R153) -/

section Rows

variable {t : Time} {x : Station} {f : Frame} {s : State}

theorem arrival_concluded {deliver : Option Queued → State → State} (powered : s.powered = true) (good : f.goodForm = true) :
    arrival t x f deliver s = .next (((s.advance t).frameArrives x f deliver).conclude (s.advance t)) := by
  simp [arrival, good, event, whenPowered, powered]

/-- A good frame of another station: what the blocks make of it. -/
theorem arrival_of_other {deliver : Option Queued → State → State} (powered : s.powered = true) (other : s.isSelf x = false)
    (good : f.goodForm = true) :
    arrival t x f deliver s = .next ((deliver none ((s.advance t).heardFrom x f)).conclude (s.advance t)) := by
  rw [arrival_concluded powered good, State.frameArrives_other (s := s.advance t) f deliver other]

/-- The frame in flight is this station's own at its arrival (R142). -/
theorem State.ownFrame_of_inFlight {q : QueueId} {i : Queued} {rest : List Queued} (self : s.isSelf x = true)
    (flies : s.inFlight q f i rest) : (s.lineHeard x).ownFrame x f = some i := by
  obtain ⟨sends, queue⟩ := flies
  have self' : (s.lineHeard x).isSelf x = true := self
  have sends' : (s.lineHeard x).liu.transmitter = .sending q f := sends
  have queue' : (s.lineHeard x).liu.queue q = i :: rest := by
    rw [← queue]
    cases q <;> rfl
  simp [State.ownFrame, sends', self', Liu.flight, queue']

/-- The echo of an own frame: what the blocks make of it. -/
theorem arrival_of_own {deliver : Option Queued → State → State} {q : QueueId} {i : Queued} {rest : List Queued}
    (powered : s.powered = true) (self : s.isSelf x = true) (good : f.goodForm = true) (flies : s.inFlight q f i rest) :
    arrival t x f deliver s = .next ((deliver (some i) ((s.advance t).echoed x)).conclude (s.advance t)) := by
  rw [arrival_concluded powered good]
  have own : ((s.advance t).lineHeard x).ownFrame x f = some i := State.ownFrame_of_inFlight (s := s.advance t) self flies
  simp only [State.frameArrives, own]
  rfl

/-- A part of another station (R81, R83). -/
theorem partArrival_of_other {kind : TransferKind} {p : PartField} {echoed : Queued → State → State} {suppress : State → State}
    (powered : s.powered = true) (other : s.isSelf x = false) (good : f.goodForm = true) :
    partArrival t x f kind p echoed suppress s =
      .next (((suppress ((s.advance t).heardFrom x f)).receivePart kind x p).1.concludeFrom (s.advance t)
        ((suppress ((s.advance t).heardFrom x f)).receivePart kind x p).2) := by
  have heard : ((s.advance t).lineHeard x).isSelf x = false := other
  have noEcho : ((s.advance t).lineHeard x).ownFrame x f = none := by
    unfold State.ownFrame
    split <;> simp [heard]
  simp only [partArrival, good, if_true, whenPowered, powered, noEcho, heard, Bool.false_eq_true, if_false]
  rfl

/-- The echo of an own part (R77). -/
theorem partArrival_of_own {kind : TransferKind} {p : PartField} {echoed : Queued → State → State} {suppress : State → State}
    {q : QueueId} {i : Queued} {rest : List Queued} (powered : s.powered = true) (self : s.isSelf x = true)
    (good : f.goodForm = true) (flies : s.inFlight q f i rest) :
    partArrival t x f kind p echoed suppress s =
      .next ((echoed i ((s.advance t).echoed x)).conclude (s.advance t)) := by
  have own : ((s.advance t).lineHeard x).ownFrame x f = some i := State.ownFrame_of_inFlight (s := s.advance t) self flies
  simp only [partArrival, good, if_true, whenPowered, powered, own]
  rfl

end Rows

end Sys2Proof.Machine
end

section
/-! PROOF. Another station's RENEW, RELEASE, UPDATE and OBJECT at the directory and the replicas (R6, R20 to R29, R59 to R70,
R94), with the rules about a change of condition that they share. -/

-- One declaration at a time: side by side, the case splits of these proofs want more threads than the memory limit allows.
set_option Elab.async false

namespace Sys2Proof.Machine

/-! ## Notices behind further effects (R53, R164) -/

namespace CommandOnly

variable {a s t : State} {r : Region}

/-- An effect on the host link beside the completion queue, before and after a notice. -/
theorem withHost {f : HostLink → HostLink} (h : CommandOnly s t) (apart : ∀ l, (f l).flags = f l.flags) :
    CommandOnly (s.withHost f) (t.withHost f) := by
  have flags : (f t.host).flags = (f s.host).flags := by rw [apart, apart, h.flags]
  have config : (f t.host).config = (f s.host).config := by
    have same := congrArg HostLink.config flags
    exact same
  exact ⟨⟨h.now, h.powered, h.directory, h.budget, h.replicas, h.transfer, h.membership, h.freeCount, h.pending,
    config, h.lastReset⟩, h.line, flags⟩

theorem raiseVersionGaps (h : CommandOnly s t) : CommandOnly s.raiseVersionGaps t.raiseVersionGaps := h.withHost fun _ => rfl

theorem raiseForeignUpdates (h : CommandOnly s t) : CommandOnly s.raiseForeignUpdates t.raiseForeignUpdates :=
  h.withHost fun _ => rfl

theorem noticeUpdateApplied {x : Station} (h : CommandOnly a s) : CommandOnly a (s.noticeUpdateApplied r x) := by
  unfold State.noticeUpdateApplied
  split
  · split
    · exact h.proceed.ite h
    · exact h.proceed.ite h
    · exact h
  · exact h

end CommandOnly

/-! ## A replica that falls out of step (R61, R66, R67, R94) -/

/-- The replica of region `r` becomes STALE, and is told (R53, R69). -/
def State.outdated (s : State) (r : Region) : State := (s.recondition r .stale).addChange r

/-- A LOST replica returns to STALE, and is told (R94). -/
def State.returned (s : State) (r : Region) : State := (s.setReplica r { s.replica r with attempts := 0 }).outdated r

section Outdated

variable {s : State} {r : Region} {v : Version}

theorem State.replica_outdated (q : Region) :
    (s.outdated r).replica q = if q = r then { s.replica r with condition := .stale } else s.replica q :=
  State.replica_recondition s r q .stale

theorem State.replica_returned (q : Region) :
    (s.returned r).replica q = if q = r then { s.replica r with condition := .stale, attempts := 0 } else s.replica q := by
  refine (State.replica_outdated q).trans ?_
  split
  · rw [State.replica_setReplica_self]
  next ne => exact State.replica_setReplica_ne s _ ne

theorem State.mem_changeSet_outdated : r ∈ (s.outdated r).host.changeSet := mem_insertAscending_self r _

theorem State.repairList_outdated (closed : s.inReception r = false) :
    (s.outdated r).transfer.repairList = s.transfer.repairList ++ [r] := by
  show s.repairListAfter r .stale = _
  simp [State.repairListAfter, closed]

theorem State.changeCondition_stale_commandOnly (behind : (s.replica r).condition ≠ .stale) :
    CommandOnly (s.outdated r) (s.changeCondition r .stale) := by
  rw [State.changeCondition_eq behind]
  exact (CommandOnly.refl _).noticeRegionNotCurrent.ite (CommandOnly.refl _)

theorem State.versionGap_commandOnly (current : (s.replica r).condition = .current) :
    CommandOnly (s.outdated r).raiseVersionGaps (s.versionGap r) :=
  (State.changeCondition_stale_commandOnly (by rw [current]; exact nofun)).raiseVersionGaps

theorem State.checkVersion_of_ne (current : (s.replica r).condition = .current) (ne : (s.replica r).version ≠ v) :
    s.checkVersion r v = s.versionGap r := by
  simp [State.checkVersion, State.isCurrent, current, ne]

theorem State.checkVersion_of_eq (same : (s.replica r).condition ≠ .current ∨ (s.replica r).version = v) :
    s.checkVersion r v = s := by
  refine if_neg fun differs => ?_
  simp only [State.isCurrent, Bool.and_eq_true, beq_iff_eq, bne_iff_ne] at differs
  exact same.elim (fun no => no differs.1) differs.2

theorem State.returnLost_of_ne (other : (s.replica r).condition ≠ .lost) : s.returnLost r = s := if_neg other

theorem State.returnLost_eq (lost : (s.replica r).condition = .lost) : s.returnLost r = s.returned r :=
  State.returnLost_of_lost lost

end Outdated

/-- Where one region alone may have fallen out of step below the threshold, no resync is requested (R54). -/
theorem State.inStep_of_one {s before : State} {r : Region} (few : before.outOfStep < 15)
    (others : ∀ q, q ≠ r → s.replica q = before.replica q) : s.inStep before := by
  have most := State.outOfStep_le_succ (s := before) (t := s) (r := r) fun q ne behind => by
    rwa [State.behind_of_condition (congrArg Replica.condition (others q ne))] at behind
  exact .inr (.inl (by omega))

/-! ## The owner's frames at the directory (R6, R27, R28) -/

section Owner

variable {s : State} {r : Region} {x : Station}

theorem Entry.heldBy_iff {e : Entry} : e.heldBy x = true ↔ ∃ l side, e.state = .held x l side := by
  cases state : e.state <;> simp [Entry.heldBy, state, EntryState.view]

theorem State.ownerAnswer_yes (held : (s.entry r).heldBy x = true) : s.ownerAnswer r x = .yes := by
  obtain ⟨l, side, state⟩ := Entry.heldBy_iff.1 held
  simp [State.ownerAnswer, held, Entry.isUnknown, state, EntryState.view]

theorem State.ownerAnswer_unknown (unknown : (s.entry r).state = .unknown) : s.ownerAnswer r x = .unknown := by
  simp [State.ownerAnswer, Entry.isUnknown, unknown, EntryState.view]

theorem State.ownerAnswer_no (other : (s.entry r).heldBy x = false) (known : (s.entry r).state ≠ .unknown) :
    s.ownerAnswer r x = .no := by
  have known' : (s.entry r).isUnknown = false := by
    cases state : (s.entry r).state <;> simp_all [Entry.isUnknown, EntryState.view]
  simp [State.ownerAnswer, known', other]

theorem State.ownerAnswer_ne_yes (other : (s.entry r).heldBy x = false) : s.ownerAnswer r x ≠ .yes := by
  unfold State.ownerAnswer
  split
  · exact nofun
  · simp [other]

/-- The owner's side after the lease restarts at `lease` (R27). -/
def OwnerSide.restarted (side : OwnerSide) (lease : Time) : OwnerSide :=
  match side with
  | .running _ => .running (lease - 1000000)
  | .notOwn | .lapsed => side

theorem State.restartLease_of_held {l : Time} {side : OwnerSide} (held : (s.entry r).state = .held x l side) :
    s.restartLease r = s.setEntry r
      { s.entry r with state := .held x (s.now + s.leaseTime) (side.restarted (s.now + s.leaseTime)) } := by
  unfold State.restartLease
  rw [held]
  cases side <;> rfl

theorem DirectoryOnly.restartLease (s : State) (r : Region) : DirectoryOnly s (s.restartLease r) := by
  unfold State.restartLease
  split
  · exact (DirectoryOnly.refl s).setEntry
  · exact .refl s

theorem State.restartLease_liu (s : State) (r : Region) : (s.restartLease r).liu = s.liu := by
  unfold State.restartLease
  split <;> rfl

theorem State.restartLease_host (s : State) (r : Region) : (s.restartLease r).host = s.host := by
  unfold State.restartLease
  split <;> rfl

end Owner

/-- What the conclusion leaves of another station's frame, where no resync is requested and none is under way (R54, R112). -/
theorem arrival_other_commandOnly {t : Time} {x : Station} {f : Frame} {deliver : Option Queued → State → State} {s d : State}
    (powered : s.powered = true) (other : s.isSelf x = false) (good : f.goodForm = true)
    (is : deliver none ((s.advance t).heardFrom x f) = d) (quiet : d.notResyncing) (step : d.inStep (s.advance t)) :
    ∃ s', arrival t x f deliver s = .next s' ∧ CommandOnly d s' :=
  ⟨_, arrival_of_other powered other good, is ▸ State.conclude_commandOnly (is ▸ quiet) (is ▸ step)⟩

/-! ## RENEW and RELEASE -/

/-- Another station's RENEW (R27). -/
theorem renew_follows {t : Time} {x : Station} {r : Region} {s : State} (powered : s.powered = true)
    (other : s.isSelf x = false) (quiet : s.notResyncing) :
    ∃ s', exec (.renewArrival t x r) s = .next s' ∧ s'.replicas = s.replicas ∧
      s'.host.changeSet = s.host.changeSet ∧ (∀ q, q ≠ r → s'.entry q = s.entry q) ∧
      (∀ l, (s.entry r).state = .held x l .notOwn →
        s'.entry r = { s.entry r with state := .held x (max s.now t + s.leaseTime) .notOwn } ∧
          s'.host.counters = s.host.counters) ∧
      ((s.entry r).heldBy x = false → s'.entry r = s.entry r) ∧
      ((s.entry r).heldBy x = false → (s.entry r).state ≠ .unknown →
        s'.host.counters = { s.host.counters with foreignUpdates := raiseCounter s.host.counters.foreignUpdates }) ∧
      ((s.entry r).state = .unknown → s'.host.counters = s.host.counters) := by
  have heard := (s.advance t).heardFrom_heard x (.renew r)
  generalize is : (s.advance t).heardFrom x (.renew r) = h at heard
  have entry (q : Region) : h.entry q = s.entry q := heard.entry q
  have quiet' : h.notResyncing := heard.notResyncing quiet
  have follows {d : State} (form : h.renewArrives x r false = d) (kept : StationKept h d) :
      ∃ s', exec (.renewArrival t x r) s = .next s' ∧ CommandOnly d s' :=
    arrival_other_commandOnly (f := .renew r) powered other rfl (is ▸ form) (kept.notResyncing quiet')
      (State.inStep_of_replicas (kept.replicas.trans heard.replicas))
  by_cases held : (s.entry r).heldBy x = true
  · obtain ⟨l, side, state⟩ := Entry.heldBy_iff.1 held
    have form : h.renewArrives x r false = h.restartLease r := by
      simp only [State.renewArrives, State.ownerAnswer_yes (s := h) (by rw [entry]; exact held), Bool.false_eq_true, if_false]
    have restarted := State.restartLease_of_held (s := h) (by rw [entry]; exact state)
    obtain ⟨s', next, kept⟩ := follows form (DirectoryOnly.restartLease h r).toStationKept
    have written (q : Region) := (kept.entry q).trans (congrArg (State.entry · q) restarted)
    refine ⟨s', next, ?_, ?_, fun q ne => ?_, fun l' state' => ⟨?_, ?_⟩, fun no => absurd held (by simp [no]),
      fun no => absurd held (by simp [no]), fun unknown => nomatch unknown.symm.trans state⟩
    · exact kept.replicas.trans ((DirectoryOnly.restartLease h r).replicas.trans heard.replicas)
    · rw [kept.changeSet, State.restartLease_host, heard.host]
      rfl
    · rw [written q, State.entry_setEntry_ne _ _ ne, entry]
    · have side' : side = .notOwn := (EntryState.held.inj (state.symm.trans state')).2.2
      rw [written r, State.entry_setEntry_self, entry, heard.now, heard.leaseTime, side']
      rfl
    · rw [kept.counters, State.restartLease_host, heard.host]
      rfl
  · have no : (s.entry r).heldBy x = false := by simpa using held
    have notHeld {l : Time} {side : OwnerSide} (state : (s.entry r).state = .held x l side) : False :=
      held (Entry.heldBy_iff.2 ⟨l, side, state⟩)
    by_cases unknown : (s.entry r).state = .unknown
    · have form : h.renewArrives x r false = h := by
        simp only [State.renewArrives, State.ownerAnswer_unknown (s := h) (by rw [entry]; exact unknown), Bool.false_eq_true,
          if_false]
      obtain ⟨s', next, kept⟩ := follows form (RegionsKept.refl h).toStationKept
      have counters : s'.host.counters = s.host.counters := kept.counters.trans (congrArg HostLink.counters heard.host)
      exact ⟨s', next, kept.replicas.trans heard.replicas, kept.changeSet.trans (congrArg HostLink.changeSet heard.host),
        fun q _ => (kept.entry q).trans (entry q), fun l state => (notHeld state).elim, fun _ => (kept.entry r).trans (entry r),
        fun _ known => absurd unknown known, fun _ => counters⟩
    · have form : h.renewArrives x r false = h.raiseForeignUpdates := by
        simp only [State.renewArrives, State.ownerAnswer_no (s := h) (by rw [entry]; exact no) (by rw [entry]; exact unknown),
          Bool.false_eq_true, if_false]
      obtain ⟨s', next, kept⟩ := follows form ⟨rfl, rfl, rfl, rfl, rfl, rfl⟩
      have raised : h.raiseForeignUpdates.host.counters =
          { s.host.counters with foreignUpdates := raiseCounter s.host.counters.foreignUpdates } := by
        rw [show s.host = h.host from heard.host.symm]
        rfl
      have changes : h.host.changeSet = s.host.changeSet := congrArg HostLink.changeSet heard.host
      exact ⟨s', next, kept.replicas.trans heard.replicas, kept.changeSet.trans changes,
        fun q _ => (kept.entry q).trans (entry q), fun l state => (notHeld state).elim, fun _ => (kept.entry r).trans (entry r),
        fun _ _ => kept.counters.trans raised, fun is => absurd is unknown⟩

/-- The replica after a RELEASE's final version is checked and a LOST one returned (R67, R94). -/
theorem State.released_cases (s : State) (r : Region) (v : Version) :
    ((s.replica r).condition = .lost ∧ CommandOnly (s.returned r) ((s.checkVersion r v).returnLost r)) ∨
      ((s.replica r).condition = .current ∧ (s.replica r).version ≠ v ∧
        CommandOnly (s.outdated r).raiseVersionGaps ((s.checkVersion r v).returnLost r)) ∨
      ((s.replica r).condition ≠ .lost ∧ ((s.replica r).condition = .current → (s.replica r).version = v) ∧
        (s.checkVersion r v).returnLost r = s) := by
  by_cases lost : (s.replica r).condition = .lost
  · refine .inl ⟨lost, ?_⟩
    rw [State.checkVersion_of_eq (.inl (by rw [lost]; exact nofun)), State.returnLost_eq lost]
    exact .refl _
  · by_cases gap : (s.replica r).condition = .current ∧ (s.replica r).version ≠ v
    · have gone := State.versionGap_commandOnly gap.1
      have stale : ((s.versionGap r).replica r).condition = .stale := by
        rw [gone.replica]
        exact congrArg Replica.condition ((State.replica_outdated r).trans (if_pos rfl))
      refine .inr (.inl ⟨gap.1, gap.2, ?_⟩)
      rw [State.checkVersion_of_ne gap.1 gap.2, State.returnLost_of_ne (by rw [stale]; exact nofun)]
      exact gone
    · have same : (s.replica r).condition = .current → (s.replica r).version = v :=
        fun current => Decidable.of_not_not fun ne => gap ⟨current, ne⟩
      refine .inr (.inr ⟨lost, same, ?_⟩)
      rw [State.checkVersion_of_eq (by by_cases current : (s.replica r).condition = .current
                                       · exact .inr (same current)
                                       · exact .inl current), State.returnLost_of_ne lost]

theorem State.changeEntry_counters (s : State) (r : Region) (e : Entry) (tell : Bool) :
    (s.changeEntry r e tell).host.counters = s.host.counters := by
  unfold State.changeEntry
  dsimp only
  split <;> rfl

theorem State.changeEntry_liu (s : State) (r : Region) (e : Entry) (tell : Bool) : (s.changeEntry r e tell).liu = s.liu := by
  unfold State.changeEntry
  dsimp only
  split <;> rfl

/-- A holding of another station that is settled (R28, R29): the directory, and nothing of the replicas. -/
structure Settled (r : Region) (why : SettleReason) (x : Station) (s t : State) : Prop extends DirectoryOnly s t where
  entry : ∀ q, t.entry q = if q = r then s.settled r why x else s.entry q
  told : r ∈ t.host.changeSet
  counters : t.host.counters = s.host.counters
  transmitter : t.liu.transmitter = s.liu.transmitter

theorem State.settle_settled {s : State} {r : Region} {x : Station} (why : SettleReason) (held : (s.entry r).heldBy x = true) :
    Settled r why x s (s.settle r why x true) := by
  obtain ⟨l, side, state⟩ := Entry.heldBy_iff.1 held
  have kept := s.settle_commandOnly r why x true
  refine ⟨(DirectoryOnly.refl s).settle, fun q => s.entry_settle r q why x true, kept.changeSet ▸ ?_,
    kept.counters.trans (State.changeEntry_counters _ _ _ _), kept.transmitter.trans
      (congrArg Liu.transmitter (State.changeEntry_liu _ _ _ _))⟩
  refine State.mem_changeSet_changeEntry ?_
  simp [Entry.view, State.settled, state, EntryState.view]

/-- Another station's RELEASE (R29, R67, R94). -/
theorem release_follows {t : Time} {x : Station} {r : Region} {v : Version} {s : State} (powered : s.powered = true)
    (other : s.isSelf x = false) (stays : s.station ≠ .leaving) (few : s.outOfStep < 15) :
    ∃ s', exec (.releaseArrival t x r v) s = .next s' ∧ (∀ q, q ≠ r → s'.entry q = s.entry q) ∧
      ((s.entry r).heldBy x = false → s'.directory = s.directory ∧ s'.replicas = s.replicas ∧
        s'.host.counters = s.host.counters) ∧
      ((s.entry r).heldBy x = true →
        s'.entry r = { s.entry r with
          state := .settling .released (max s.now t + 300000), lastOwner := some x } ∧
        r ∈ s'.host.changeSet ∧
        ((s.replica r).condition = .lost → s'.replica r = { s.replica r with condition := .stale, attempts := 0 }) ∧
        ((s.replica r).condition = .current → (s.replica r).version ≠ v →
          s'.replica r = { s.replica r with condition := .stale } ∧
            s'.host.counters = { s.host.counters with versionGaps := raiseCounter s.host.counters.versionGaps }) ∧
        ((s.replica r).condition = .current → (s.replica r).version = v → s'.replicas = s.replicas)) := by
  have heard := (s.advance t).heardFrom_heard x (.release r v)
  generalize is : (s.advance t).heardFrom x (.release r v) = h at heard
  have entry (q : Region) : h.entry q = s.entry q := heard.entry q
  have replica (q : Region) : h.replica q = s.replica q := heard.replica q
  have counters : h.host.counters = s.host.counters := congrArg HostLink.counters heard.host
  have follows {d w : State} (form : h.releaseArrives x r v false = d) (kept : CommandOnly w d) (station : w.station = h.station)
      (others : ∀ q, q ≠ r → w.replica q = h.replica q) :
      ∃ s', exec (.releaseArrival t x r v) s = .next s' ∧ CommandOnly w s' := by
    have stays' : d.station ≠ .leaving := fun leaving => stays (heard.station.symm.trans (station.symm.trans
      (kept.station.symm.trans leaving)))
    obtain ⟨s', next, only⟩ := arrival_other_commandOnly (f := .release r v) (t := t)
      (deliver := fun own s => s.releaseArrives x r v own.isSome) powered other rfl (is ▸ form)
      (fun leaving => absurd leaving stays') (State.inStep_of_one (r := r) few fun q ne =>
        (kept.replica q).trans ((others q ne).trans (replica q)))
    exact ⟨s', next, kept.trans only⟩
  by_cases held : (s.entry r).heldBy x = true
  · have settled := State.settle_settled (s := h) .released (r := r) (x := x) (by rw [entry]; exact held)
    have form : h.releaseArrives x r v false = ((h.settle r .released x true).checkVersion r v).returnLost r := by
      simp only [State.releaseArrives, State.ownerAnswer_yes (s := h) (r := r) (x := x) (by rw [entry]; exact held), if_true,
        Bool.not_false, Bool.false_eq_true, if_false]
    have cases_ := (h.settle r .released x true).released_cases r v
    generalize h.settle r .released x true = w at settled form cases_
    have same (q : Region) : w.replica q = s.replica q := (State.replica_congr settled.replicas q).trans (replica q)
    rw [same] at cases_
    have entries (q : Region) : w.entry q = if q = r then { s.entry r with
        state := .settling .released (max s.now t + 300000), lastOwner := some x } else s.entry q := by
      rw [settled.entry q, entry q]
      unfold State.settled
      rw [entry, heard.now]
      rfl
    obtain ⟨lost, kept⟩ | ⟨current, gap, kept⟩ | ⟨found, agrees, unchanged⟩ := cases_
    · obtain ⟨s', next, only⟩ := follows form kept settled.station fun q ne =>
        (State.replica_returned q).trans ((if_neg ne).trans (State.replica_congr settled.replicas q))
      refine ⟨s', next, fun q ne => (only.entry q).trans ((entries q).trans (if_neg ne)), fun no => absurd held (by simp [no]),
        fun _ => ⟨(only.entry r).trans ((entries r).trans (if_pos rfl)), only.changeSet ▸ State.mem_changeSet_outdated,
          fun _ => ?_, fun current => (nomatch lost.symm.trans current), fun current => (nomatch lost.symm.trans current)⟩⟩
      rw [only.replica, State.replica_returned, if_pos rfl, same]
    · obtain ⟨s', next, only⟩ := follows form kept settled.station fun q ne =>
        (State.replica_outdated q).trans ((if_neg ne).trans (State.replica_congr settled.replicas q))
      refine ⟨s', next, fun q ne => (only.entry q).trans ((entries q).trans (if_neg ne)), fun no => absurd held (by simp [no]),
        fun _ => ⟨(only.entry r).trans ((entries r).trans (if_pos rfl)), only.changeSet ▸ State.mem_changeSet_outdated,
          fun lost => (nomatch lost.symm.trans current), fun _ _ => ⟨?_, ?_⟩, fun _ eq => absurd eq gap⟩⟩
      · rw [only.replica]
        exact (State.replica_outdated r).trans ((if_pos rfl).trans (by rw [same]))
      · have raised : (w.outdated r).raiseVersionGaps.host.counters =
            { w.host.counters with versionGaps := raiseCounter w.host.counters.versionGaps } := rfl
        rw [only.counters, raised, settled.counters, counters]
    · rw [unchanged] at form
      obtain ⟨s', next, only⟩ := follows form (.refl w) settled.station fun q _ => State.replica_congr settled.replicas q
      exact ⟨s', next, fun q ne => (only.entry q).trans ((entries q).trans (if_neg ne)), fun no => absurd held (by simp [no]),
        fun _ => ⟨(only.entry r).trans ((entries r).trans (if_pos rfl)), only.changeSet ▸ settled.told,
          fun lost => absurd lost found, fun current gap => absurd (agrees current) gap,
          fun _ _ => only.replicas.trans (settled.replicas.trans heard.replicas)⟩⟩
  · have no : (s.entry r).heldBy x = false := by simpa using held
    have form : h.releaseArrives x r v false = h := if_neg (State.ownerAnswer_ne_yes (by rw [entry]; exact no))
    obtain ⟨s', next, only⟩ := follows form (.refl h) rfl fun _ _ => rfl
    exact ⟨s', next, fun q _ => (only.entry q).trans (entry q), fun _ => ⟨only.directory.trans heard.directory,
      only.replicas.trans heard.replicas, only.counters.trans counters⟩, fun yes => absurd yes held⟩

/-- Settles O36. -/
theorem renewAndReleaseActOnTheHolding : Obligations.RenewAndReleaseActOnTheHolding :=
  ⟨fun _ _ _ _ powered other quiet => renew_follows powered other quiet,
    fun _ _ _ _ _ powered other stays few => release_follows powered other stays few⟩

end Sys2Proof.Machine
end

section
/-! PROOF. Another station's OBJECT and UPDATE (R20 to R25, R28, R59 to R70, R85, R88, R94), and the resync that too many
regions out of step request (R54, R115). -/

-- One declaration at a time: side by side, the case splits of these proofs want more threads than the memory limit allows.
set_option Elab.async false

namespace Sys2Proof.Machine

/-- What the conclusion leaves of another station's frame whose blocks leave `w` but for the command unit's part. -/
theorem arrival_other_follows {t : Time} {x : Station} {f : Frame} {deliver : Option Queued → State → State} {s w : State}
    (powered : s.powered = true) (other : s.isSelf x = false) (good : f.goodForm = true)
    (kept : CommandOnly w (deliver none ((s.advance t).heardFrom x f))) (quiet : w.notResyncing) (step : w.inStep (s.advance t)) :
    ∃ s', arrival t x f deliver s = .next s' ∧ CommandOnly w s' := by
  refine ⟨_, arrival_of_other powered other good, kept.trans (State.conclude_commandOnly (kept.notResyncing quiet) ?_)⟩
  rw [State.inStep, kept.outOfStep, kept.station]
  exact step

/-! ## OBJECT (R16, R20 to R25, R66) -/

/-- The station after an OBJECT's suppression and the end of the overheard claim (R16, R20). -/
def State.objectHeard (s : State) (c : Claim) (r : Region) : State :=
  (s.cancel .reply (Item.isObjectTo c)).dropOverheard r c

theorem State.objectHeard_directoryOnly (s : State) (c : Claim) (r : Region) : DirectoryOnly s (s.objectHeard c r) := by
  have withdrawn : DirectoryOnly s (s.cancel .reply (Item.isObjectTo c)) := .of_lineOnly (s.cancel_lineOnly _ _)
  unfold State.objectHeard State.dropOverheard
  dsimp only
  split
  · exact withdrawn.setEntry
  · exact withdrawn

theorem State.entry_objectHeard (s : State) (c : Claim) (r : Region) :
    (∀ q, q ≠ r → (s.objectHeard c r).entry q = s.entry q) ∧ ((s.objectHeard c r).entry r).state = (s.entry r).state ∧
      ((s.objectHeard c r).entry r).lastOwner = (s.entry r).lastOwner := by
  unfold State.objectHeard State.dropOverheard
  dsimp only
  split
  · exact ⟨fun q ne => State.entry_setEntry_ne _ _ ne, by rw [State.entry_setEntry_self]; rfl,
      by rw [State.entry_setEntry_self]; rfl⟩
  · exact ⟨fun _ _ => rfl, rfl, rfl⟩

/-- The carried version at a replica (R66, R67). -/
theorem State.checked_cases (s : State) (r : Region) (v : Version) :
    ((s.replica r).condition = .current ∧ (s.replica r).version ≠ v ∧
        CommandOnly (s.outdated r).raiseVersionGaps (s.checkVersion r v)) ∨
      (((s.replica r).condition ≠ .current ∨ (s.replica r).version = v) ∧ s.checkVersion r v = s) := by
  by_cases same : (s.replica r).condition ≠ .current ∨ (s.replica r).version = v
  · exact .inr ⟨same, State.checkVersion_of_eq same⟩
  · obtain ⟨current, gap⟩ := not_or.1 same
    rw [Decidable.not_not] at current
    exact .inl ⟨current, gap, State.checkVersion_of_ne current gap ▸ State.versionGap_commandOnly current⟩

/-- The reasons whose objection carries a version to check (R66). -/
def carriesVersion : ObjectReason → Bool
  | .held | .settling => true
  | .claimed | .budget => false

/-- An OBJECT for another claim than the pending one (R21). -/
theorem State.objectArrives_of_ne {s : State} {c : Claim} {r : Region} {why : ObjectReason} {x : Station} {v : Version}
    (ne : (s.entry r).state.view ≠ .claimed c) : s.objectArrives c r why x v = s.objectHeard c r := by
  have state := (s.entry_objectHeard c r).2.1
  refine if_neg fun claimed => ne ?_
  rw [← state]
  exact beq_iff_eq.1 claimed

/-- An OBJECT for the pending claim (R21 to R25). -/
theorem State.objectArrives_commandOnly {s : State} {c : Claim} {r : Region} {why : ObjectReason} {x : Station} {v : Version}
    (pending : (s.entry r).state.view = .claimed c) :
    let told := (s.objectHeard c r).tellEntry r ((s.objectHeard c r).objectedEntry ((s.objectHeard c r).entry r) why x v)
    CommandOnly (if carriesVersion why then told.checkVersion r v else told) (s.objectArrives c r why x v) := by
  have claimed : ((s.objectHeard c r).entry r).claimedAs c = true := by
    simp [Entry.claimedAs, (s.entry_objectHeard c r).2.1, pending]
  have form : s.objectArrives c r why x v =
      let told := (s.objectHeard c r).tellEntry r ((s.objectHeard c r).objectedEntry ((s.objectHeard c r).entry r) why x v)
      let checked := match why with
        | .held | .settling => told.checkVersion r v
        | .claimed | .budget => told
      if checked.isSelf c.station then checked.noticeObjected r why else checked := if_pos claimed
  rw [form]
  cases why <;> exact (CommandOnly.refl _).noticeObjected.ite (.refl _)

/-- The entry that the reason of a matching OBJECT gives (R22 to R24). -/
theorem State.objectedEntry_state (s : State) (e : Entry) (why : ObjectReason) (owner : Station) (v : Version) :
    (why = .held → (∃ side, (s.objectedEntry e why owner v).state = .held owner (s.now + s.leaseTime) side) ∧
      (s.objectedEntry e why owner v).lastOwner = e.lastOwner) ∧
    (why = .settling → (s.objectedEntry e why owner v).state = .settling .released (s.now + 300000) ∧
      (s.objectedEntry e why owner v).lastOwner = some owner) ∧
    (why = .claimed → (s.objectedEntry e why owner v).state =
      .claimed { station := owner, number := v.setWidth 8 } (s.now + 250000)) ∧
    (why = .budget → (s.objectedEntry e why owner v).state = .free ∧
      (s.objectedEntry e why owner v).lastOwner = e.lastOwner) := by
  refine ⟨?_, ?_, ?_, ?_⟩ <;> rintro rfl
  · exact ⟨⟨_, rfl⟩, rfl⟩
  · exact ⟨rfl, rfl⟩
  · rfl
  · exact ⟨rfl, rfl⟩

/-- The regions after an OBJECT for the pending claim of region `r`: the entry, and the replica where the carried version is a
gap (R22 to R24, R66). -/
theorem State.objectArrives_pending {s : State} {c : Claim} {r : Region} {why : ObjectReason} {x : Station} {v : Version}
    (pending : (s.entry r).state.view = .claimed c) :
    ∃ w, CommandOnly w (s.objectArrives c r why x v) ∧ w.station = s.station ∧ (∀ q, q ≠ r → w.entry q = s.entry q) ∧
      w.entry r = (s.objectHeard c r).objectedEntry ((s.objectHeard c r).entry r) why x v ∧ r ∈ w.host.changeSet ∧
      ((carriesVersion why = true ∧ (s.replica r).condition = .current ∧ (s.replica r).version ≠ v ∧
          ∀ q, w.replica q = if q = r then { s.replica r with condition := .stale } else s.replica q) ∨
        ((carriesVersion why = false ∨ (s.replica r).condition ≠ .current ∨ (s.replica r).version = v) ∧
          w.replicas = s.replicas)) := by
  have form := State.objectArrives_commandOnly (why := why) (x := x) (v := v) pending
  have directoryOnly := s.objectHeard_directoryOnly c r
  obtain ⟨entries, -, -⟩ := s.entry_objectHeard c r
  generalize (s.objectHeard c r).objectedEntry ((s.objectHeard c r).entry r) why x v = e at form ⊢
  have written (q : Region) : q ≠ r → ((s.objectHeard c r).tellEntry r e).entry q = s.entry q := fun ne =>
    (State.entry_setEntry_ne _ e ne).trans (entries q ne)
  have self : ((s.objectHeard c r).tellEntry r e).entry r = e := State.entry_setEntry_self _ r e
  have replicas : ((s.objectHeard c r).tellEntry r e).replicas = s.replicas := directoryOnly.replicas
  have told : r ∈ ((s.objectHeard c r).tellEntry r e).host.changeSet := mem_insertAscending_self r _
  have station : ((s.objectHeard c r).tellEntry r e).station = s.station := directoryOnly.station
  have checked := ((s.objectHeard c r).tellEntry r e).checked_cases r v
  generalize (s.objectHeard c r).tellEntry r e = w at form written self replicas told station checked
  have replica (q : Region) : w.replica q = s.replica q := State.replica_congr replicas q
  rw [replica] at checked
  by_cases carries : carriesVersion why = true
  · simp only [carries, if_true] at form
    obtain ⟨current, ne, outdated⟩ | ⟨same, unchanged⟩ := checked
    · refine ⟨_, outdated.trans form, station, written, self, State.mem_changeSet_outdated, .inl ⟨carries, current, ne, fun q => ?_⟩⟩
      refine (State.replica_outdated q).trans ?_
      rw [replica r, replica q]
    · rw [unchanged] at form
      exact ⟨w, form, station, written, self, told, .inr ⟨.inr same, replicas⟩⟩
  · dsimp only at form
    rw [if_neg carries] at form
    exact ⟨w, form, station, written, self, told, .inr ⟨.inl (by simpa using carries), replicas⟩⟩

/-- Settles O33. -/
theorem objectSettlesThePendingClaim : Obligations.ObjectSettlesThePendingClaim := by
  intro t x c r why owner v s powered other stays few good
  have goodForm : (Frame.object c r why owner v).goodForm = true := by
    cases why <;> simp_all [Frame.goodForm]
  have heard := (s.advance t).heardFrom_heard x (.object c r why owner v)
  have follows {w : State}
      (kept : CommandOnly w (((s.advance t).heardFrom x (.object c r why owner v)).objectArrives c r why owner v))
      (station : w.station = s.station) (others : ∀ q, q ≠ r → w.replica q = s.replica q) :
      ∃ s', exec (.objectArrival t x c r why owner v) s = .next s' ∧ CommandOnly w s' :=
    arrival_other_follows (deliver := fun _ s => s.objectArrives c r why owner v) powered other goodForm kept
      (fun leaving => absurd (station.symm.trans leaving) stays) (State.inStep_of_one (r := r) few others)
  generalize (s.advance t).heardFrom x (.object c r why owner v) = h at heard follows
  have directoryOnly := h.objectHeard_directoryOnly c r
  obtain ⟨entries, state, lastOwner⟩ := h.entry_objectHeard c r
  have entry (q : Region) : h.entry q = s.entry q := heard.entry q
  have replica (q : Region) : h.replica q = s.replica q := heard.replica q
  rw [entry] at state lastOwner
  by_cases pending : (s.entry r).state.view = .claimed c
  · obtain ⟨w, form, station, others, self, told, replicas⟩ :=
      State.objectArrives_pending (s := h) (why := why) (x := owner) (v := v) (by rw [entry]; exact pending)
    obtain ⟨held, settling, claimed, budget⟩ :=
      (h.objectHeard c r).objectedEntry_state ((h.objectHeard c r).entry r) why owner v
    have now : (h.objectHeard c r).now = max s.now t := directoryOnly.now.trans heard.now
    have lease : (h.objectHeard c r).leaseTime = s.leaseTime := by simp only [State.leaseTime, directoryOnly.config, heard.host]; rfl
    rw [now, lastOwner] at held
    rw [lease] at held
    rw [now] at settling claimed
    rw [lastOwner] at budget
    rw [← self] at held settling claimed budget
    simp only [replica] at replicas
    have apart (q : Region) (ne : q ≠ r) : w.replica q = s.replica q := by
      obtain ⟨-, -, -, outdated⟩ | ⟨-, same⟩ := replicas
      · exact (outdated q).trans (if_neg ne)
      · exact State.replica_congr (same.trans heard.replicas) q
    obtain ⟨s', next, only⟩ := follows form (station.trans heard.station) apart
    rw [← only.entry] at held settling claimed budget
    have changed : r ∈ s'.host.changeSet := only.changeSet ▸ told
    refine ⟨s', next, fun q ne => (only.entry q).trans ((others q ne).trans (entry q)),
      fun q ne => (only.replica q).trans (apart q ne), ?_, fun no => absurd pending no, fun _ =>
      ⟨fun is => ⟨(held is).1, (held is).2, changed⟩, fun is => ⟨(settling is).1, (settling is).2, changed⟩, claimed,
        fun is => ⟨(budget is).1, (budget is).2, changed⟩, fun is current ne => ?_, fun same => ?_⟩⟩
    · rw [only.replica]
      obtain ⟨-, -, -, outdated⟩ | ⟨-, same⟩ := replicas
      · rw [outdated, if_pos rfl]
      · exact congrArg Replica.content (State.replica_congr (same.trans heard.replicas) r)
    · obtain ⟨-, -, -, outdated⟩ | ⟨silent | no | eq, -⟩ := replicas
      · rw [only.replica, outdated, if_pos rfl]
      · exact absurd silent (by rcases is with rfl | rfl <;> exact nofun)
      · exact absurd current no
      · exact absurd eq ne
    · obtain ⟨carries, current, ne, -⟩ | ⟨-, kept⟩ := replicas
      · obtain (rfl | rfl) | no | eq := same
        · exact nomatch carries
        · exact nomatch carries
        · exact absurd current no
        · exact absurd eq ne
      · exact only.replicas.trans (kept.trans heard.replicas)
  · have form : h.objectArrives c r why owner v = h.objectHeard c r := State.objectArrives_of_ne (by rw [entry]; exact pending)
    have replicas : (h.objectHeard c r).replicas = s.replicas := directoryOnly.replicas.trans heard.replicas
    obtain ⟨s', next, only⟩ := follows (form ▸ .refl _) (directoryOnly.station.trans heard.station) fun q _ =>
      State.replica_congr replicas q
    have same : s'.replicas = s.replicas := only.replicas.trans replicas
    exact ⟨s', next, fun q ne => (only.entry q).trans ((entries q ne).trans (entry q)), fun q _ => State.replica_congr same q,
      congrArg Replica.content (State.replica_congr same r), fun _ => ⟨by rw [only.entry, state],
        by rw [only.entry, lastOwner], same⟩, fun yes => absurd yes pending⟩

/-! ## UPDATE (R28, R59 to R65) -/

section Update

variable {s : State} {x : Station} {u : Update}

theorem State.updateArrives_yes (held : (s.entry u.region).heldBy x = true) :
    s.updateArrives x u false = (s.updateAtDirectory x u false).updateAtReplica .yes x u false := by
  simp [State.updateArrives, State.ownerAnswer_yes held]

theorem State.updateArrives_no (other : (s.entry u.region).heldBy x = false) (known : (s.entry u.region).state ≠ .unknown) :
    s.updateArrives x u false = s.updateAtReplica .no x u false := by
  simp [State.updateArrives, State.ownerAnswer_no other known]

theorem State.updateArrives_unknown (unknown : (s.entry u.region).state = .unknown) : s.updateArrives x u false = s := by
  simp [State.updateArrives, State.ownerAnswer_unknown unknown, State.updateAtReplica]

/-- The directory after the owner's UPDATE: the lease restarted, or the region SETTLING (R28). -/
structure Restarted (x : Station) (u : Update) (s t : State) : Prop extends DirectoryOnly s t where
  others : ∀ q, q ≠ u.region → t.entry q = s.entry q
  counters : t.host.counters = s.host.counters
  transmitter : t.liu.transmitter = s.liu.transmitter
  lease : u.closeAfter = false → (∃ side, (t.entry u.region).state = .held x (s.now + s.leaseTime) side) ∧
    (t.entry u.region).lastOwner = (s.entry u.region).lastOwner
  closed : u.closeAfter = true → (t.entry u.region).state = .settling .closedByUpdate (s.now + 300000) ∧
    (t.entry u.region).lastOwner = some x

theorem State.updateAtDirectory_restarted (held : (s.entry u.region).heldBy x = true) :
    Restarted x u s (s.updateAtDirectory x u false) := by
  obtain ⟨l, side, state⟩ := Entry.heldBy_iff.1 held
  have restarted := State.restartLease_of_held state
  have only := DirectoryOnly.restartLease s u.region
  have host := s.restartLease_host u.region
  by_cases closes : u.closeAfter = true
  · have form : s.updateAtDirectory x u false = (s.restartLease u.region).settle u.region .closedByUpdate x true := if_pos closes
    have settled := State.settle_settled (s := s.restartLease u.region) (r := u.region) (x := x) .closedByUpdate
      (Entry.heldBy_iff.2 ⟨s.now + s.leaseTime, side.restarted (s.now + s.leaseTime), by
        rw [restarted, State.entry_setEntry_self]⟩)
    rw [form]
    refine ⟨only.trans settled.toDirectoryOnly, fun q ne => ?_, settled.counters.trans (congrArg HostLink.counters host),
      settled.transmitter.trans (congrArg Liu.transmitter (s.restartLease_liu _)), fun no => absurd closes (by simp [no]), fun _ => ?_⟩
    · rw [settled.entry, if_neg ne, restarted, State.entry_setEntry_ne _ _ ne]
    · rw [settled.entry, if_pos rfl]
      exact ⟨congrArg (fun n : Time => EntryState.settling .closedByUpdate (n + 300000)) only.now, rfl⟩
  · have form : s.updateAtDirectory x u false = s.restartLease u.region := if_neg closes
    rw [form]
    refine ⟨only, fun q ne => by rw [restarted, State.entry_setEntry_ne _ _ ne], congrArg HostLink.counters host,
      congrArg Liu.transmitter (s.restartLease_liu _), fun _ => ?_, fun yes => absurd yes closes⟩
    rw [restarted, State.entry_setEntry_self]
    exact ⟨⟨_, rfl⟩, rfl⟩

/-- The owner's next UPDATE at a CURRENT replica (R60). -/
theorem State.updateAtReplica_follows (current : (s.replica u.region).condition = .current)
    (next : u.version = (s.replica u.region).version + 1) :
    CommandOnly ((s.setReplica u.region ((s.replica u.region).applied u)).addChange u.region)
      (s.updateAtReplica .yes x u false) := by
  have form : s.updateAtReplica .yes x u false =
      ((s.setReplica u.region ((s.replica u.region).applied u)).addChange u.region).noticeUpdateApplied u.region x := by
    have next' : u.version = nextVersion (s.replica u.region).version := next
    simp only [State.updateAtReplica, State.isCurrent, current, beq_self_eq_true, if_true, State.updateAtCurrent, if_pos next',
      Bool.false_eq_true, if_false]
  exact form ▸ (CommandOnly.refl _).noticeUpdateApplied

/-- The owner's UPDATE that does not follow, at a CURRENT replica (R61). -/
theorem State.updateAtReplica_gap (current : (s.replica u.region).condition = .current)
    (gap : u.version ≠ (s.replica u.region).version + 1) :
    CommandOnly (s.outdated u.region).raiseVersionGaps (s.updateAtReplica .yes x u false) := by
  have form : s.updateAtReplica .yes x u false = s.versionGap u.region := by
    have gap' : ¬ u.version = nextVersion (s.replica u.region).version := gap
    simp only [State.updateAtReplica, State.isCurrent, current, beq_self_eq_true, if_true, State.updateAtCurrent, if_neg gap']
  exact form ▸ State.versionGap_commandOnly current

/-- Another station's UPDATE at a CURRENT replica (R64). -/
theorem State.updateAtReplica_foreign (current : (s.replica u.region).condition = .current) :
    CommandOnly (s.outdated u.region).raiseForeignUpdates (s.updateAtReplica .no x u false) := by
  have form : s.updateAtReplica .no x u false = (s.changeCondition u.region .stale).raiseForeignUpdates := by
    simp only [State.updateAtReplica, State.isCurrent, current, beq_self_eq_true, if_true]
  exact form ▸ (State.changeCondition_stale_commandOnly (by rw [current]; exact nofun)).raiseForeignUpdates

theorem State.updateAtReplica_foreign_other (other : (s.replica u.region).condition ≠ .current) :
    s.updateAtReplica .no x u false = s.raiseForeignUpdates := by
  have behind : s.isCurrent u.region = false := by simpa [State.isCurrent] using other
  simp only [State.updateAtReplica, behind, Bool.false_eq_true, if_false]

/-- The owner's UPDATE for a replica that is not CURRENT (R62, R63, R94). -/
theorem State.updateAtReplica_behind (other : (s.replica u.region).condition ≠ .current) :
    s.updateAtReplica .yes x u false =
      if s.inReception u.region then s.keepForCatchUp x u else if u.closeAfter then s.returnLost u.region else s := by
  have behind : s.isCurrent u.region = false := by simpa [State.isCurrent] using other
  simp only [State.updateAtReplica, behind, Bool.false_eq_true, if_false]

end Update

/-- What the conclusion leaves of another station's UPDATE that changes one replica at most below the threshold. -/
theorem update_other_follows {t : Time} {x : Station} {u : Update} {s h w : State} (powered : s.powered = true)
    (other : s.isSelf x = false) (good : u.goodForm = true) (is : (s.advance t).heardFrom x (.update u) = h)
    (kept : CommandOnly w (h.updateArrives x u false)) (quiet : w.notResyncing) (step : w.inStep (s.advance t)) :
    ∃ s', exec (.updateArrival t x u) s = .next s' ∧ CommandOnly w s' :=
  arrival_other_follows (f := .update u) powered other good (is ▸ kept) quiet step

/-- Settles O34. -/
theorem updateFromTheOwnerIsApplied : Obligations.UpdateFromTheOwnerIsApplied := by
  intro t x u l side s powered other quiet good held current next wf
  have heard := (s.advance t).heardFrom_heard x (.update u)
  generalize is : (s.advance t).heardFrom x (.update u) = h at heard
  have entry (q : Region) : h.entry q = s.entry q := heard.entry q
  have owned : (h.entry u.region).heldBy x = true := by
    rw [entry]
    exact Entry.heldBy_iff.2 ⟨l, side, held⟩
  have form := State.updateArrives_yes owned
  have directory := State.updateAtDirectory_restarted owned
  generalize h.updateAtDirectory x u false = w at form directory
  have replica (q : Region) : w.replica q = s.replica q :=
    (State.replica_congr directory.replicas q).trans (heard.replica q)
  have applied := State.updateAtReplica_follows (s := w) (x := x) (u := u) (by rw [replica]; exact current)
    (by rw [replica]; exact next)
  rw [← form, replica] at applied
  have replicas (q : Region) : ((w.setReplica u.region ((s.replica u.region).applied u)).addChange u.region).replica q =
      if q = u.region then (s.replica u.region).applied u else s.replica q := by
    refine (State.replica_setReplica w u.region q _).trans ?_
    rw [replica]
  have station : ((w.setReplica u.region ((s.replica u.region).applied u)).addChange u.region).station = s.station :=
    directory.station.trans heard.station
  have step : ((w.setReplica u.region ((s.replica u.region).applied u)).addChange u.region).inStep (s.advance t) := by
    refine .inl (State.outOfStep_le fun q behind => ?_)
    rw [State.behind_of_condition (s := s.advance t)] at behind
    · exact behind
    · rw [replicas]
      split
      next eq => rw [eq]; rfl
      · rfl
  obtain ⟨s', next', only⟩ := update_other_follows powered other good is applied
    (directory.notResyncing (heard.notResyncing quiet)) step
  have now : h.now = max s.now t := heard.now
  have lease : h.leaseTime = s.leaseTime := heard.leaseTime
  have self : s'.replica u.region = (s.replica u.region).applied u :=
    (only.replica _).trans ((replicas _).trans (if_pos rfl))
  refine ⟨s', next', by rw [self]; rfl, by rw [self]; exact current, fun a => ?_, only.changeSet ▸ mem_insertAscending_self _ _,
    only.counters.trans (directory.counters.trans (congrArg HostLink.counters heard.host)),
    fun q ne => ⟨(only.replica q).trans ((replicas q).trans (if_neg ne)),
      (only.entry q).trans ((directory.others q ne).trans (entry q))⟩, fun opens => ?_, fun closes => ?_⟩
  · have fits : u.offset.toNat + 0 + u.data.length ≤ 256 := by
      simp only [Update.goodForm, Bool.and_eq_true, decide_eq_true_eq] at good
      omega
    rw [self]
    exact readByte_writeSelected wf fits a
  · obtain ⟨⟨side', state⟩, lastOwner⟩ := directory.lease opens
    refine ⟨⟨side', ?_⟩, ?_⟩
    · rw [only.entry, ← now, ← lease]
      exact state
    · rw [only.entry, ← entry]
      exact lastOwner
  · rw [only.entry, ← now]
    exact directory.closed closes

end Sys2Proof.Machine
end

section
/-! PROOF. The UPDATE that does not follow (R54, R61 to R65, R85, R88, R94, R115). -/

-- One declaration at a time: side by side, the case splits of these proofs want more threads than the memory limit allows.
set_option Elab.async false

namespace Sys2Proof.Machine

section Below

variable {t : Time} {x : Station} {u : Update} {s : State}

/-- Another station's UPDATE that changes one replica at most, below the threshold of R54. -/
theorem update_below_follows {h d w : State} (powered : s.powered = true) (other : s.isSelf x = false) (good : u.goodForm = true)
    (stays : s.station ≠ .leaving) (few : s.outOfStep < 15) (is : (s.advance t).heardFrom x (.update u) = h)
    (form : h.updateArrives x u false = d) (kept : CommandOnly w d) (station : w.station = s.station)
    (others : ∀ q, q ≠ u.region → w.replica q = s.replica q) :
    ∃ s', exec (.updateArrival t x u) s = .next s' ∧ CommandOnly w s' :=
  update_other_follows powered other good is (form.symm ▸ kept) (fun leaving => absurd (station.symm.trans leaving) stays)
    (State.inStep_of_one few others)

/-- An UPDATE at an UNKNOWN entry (R65). -/
theorem update_unknown (powered : s.powered = true) (other : s.isSelf x = false) (good : u.goodForm = true)
    (stays : s.station ≠ .leaving) (few : s.outOfStep < 15) (unknown : (s.entry u.region).state = .unknown) :
    ∃ s', exec (.updateArrival t x u) s = .next s' ∧ s'.replicas = s.replicas ∧ s'.directory = s.directory ∧
      s'.host.counters = s.host.counters := by
  have heard := (s.advance t).heardFrom_heard x (.update u)
  generalize is : (s.advance t).heardFrom x (.update u) = h at heard
  have form : h.updateArrives x u false = h := State.updateArrives_unknown ((congrArg Entry.state (heard.entry _)).trans unknown)
  obtain ⟨s', next, only⟩ := update_below_follows powered other good stays few is form (.refl h) heard.station
    fun q _ => heard.replica q
  exact ⟨s', next, only.replicas.trans heard.replicas, only.directory.trans heard.directory,
    only.counters.trans (congrArg HostLink.counters heard.host)⟩

/-- An UPDATE of a station that is not the owner (R64). -/
theorem update_foreign (powered : s.powered = true) (other : s.isSelf x = false) (good : u.goodForm = true)
    (stays : s.station ≠ .leaving) (few : s.outOfStep < 15) (known : (s.entry u.region).state ≠ .unknown)
    (foreign : (s.entry u.region).heldBy x = false) :
    ∃ s', exec (.updateArrival t x u) s = .next s' ∧ s'.directory = s.directory ∧
      s'.host.counters = { s.host.counters with foreignUpdates := raiseCounter s.host.counters.foreignUpdates } ∧
      ((s.replica u.region).condition = .current → s.inReception u.region = false →
        s'.replica u.region = { s.replica u.region with condition := .stale } ∧
          s'.transfer.repairList = s.transfer.repairList ++ [u.region]) ∧
      ((s.replica u.region).condition ≠ .current → s'.replicas = s.replicas) := by
  have heard := (s.advance t).heardFrom_heard x (.update u)
  generalize is : (s.advance t).heardFrom x (.update u) = h at heard
  have entry : h.entry u.region = s.entry u.region := heard.entry _
  have replica (q : Region) : h.replica q = s.replica q := heard.replica q
  have reception : h.inReception u.region = s.inReception u.region := by simp only [State.inReception, heard.reception]; rfl
  have host : h.host = s.host := heard.host
  have form : h.updateArrives x u false = h.updateAtReplica .no x u false :=
    State.updateArrives_no (by rw [entry]; exact foreign) (by rw [entry]; exact known)
  by_cases current : (s.replica u.region).condition = .current
  · have kept := State.updateAtReplica_foreign (s := h) (x := x) (u := u) (by rw [replica]; exact current)
    have replicas (q : Region) : (h.outdated u.region).raiseForeignUpdates.replica q =
        if q = u.region then { s.replica u.region with condition := .stale } else s.replica q := by
      refine (State.replica_outdated q).trans ?_
      rw [replica, replica]
    obtain ⟨s', next, only⟩ := update_below_follows powered other good stays few is form kept heard.station
      fun q ne => (replicas q).trans (if_neg ne)
    refine ⟨s', next, only.directory.trans heard.directory, ?_, fun _ closed =>
      ⟨(only.replica _).trans ((replicas _).trans (if_pos rfl)), ?_⟩, fun no => absurd current no⟩
    · rw [only.counters, ← host]
      rfl
    · have list : h.transfer.repairList = s.transfer.repairList := heard.repairList
      rw [only.transfer, ← list]
      exact State.repairList_outdated (reception.trans closed)
  · have same : h.updateAtReplica .no x u false = h.raiseForeignUpdates :=
      State.updateAtReplica_foreign_other (by rw [replica]; exact current)
    obtain ⟨s', next, only⟩ := update_below_follows powered other good stays few is (form.trans same)
      (.refl _) heard.station fun q _ => replica q
    refine ⟨s', next, only.directory.trans heard.directory, ?_, fun yes => absurd yes current, fun _ =>
      only.replicas.trans heard.replicas⟩
    rw [only.counters, ← host]
    rfl

/-- The owner's UPDATE at a CURRENT replica (R60, R61). -/
theorem update_owner_current (powered : s.powered = true) (other : s.isSelf x = false) (good : u.goodForm = true)
    (stays : s.station ≠ .leaving) (few : s.outOfStep < 15) (held : (s.entry u.region).heldBy x = true)
    (current : (s.replica u.region).condition = .current) :
    ∃ s', exec (.updateArrival t x u) s = .next s' ∧
      (s.inReception u.region = false → u.version ≠ (s.replica u.region).version + 1 →
        s'.replica u.region = { s.replica u.region with condition := .stale } ∧
          s'.transfer.repairList = s.transfer.repairList ++ [u.region] ∧ u.region ∈ s'.host.changeSet ∧
          s'.host.counters = { s.host.counters with versionGaps := raiseCounter s.host.counters.versionGaps }) := by
  have heard := (s.advance t).heardFrom_heard x (.update u)
  generalize is : (s.advance t).heardFrom x (.update u) = h at heard
  have owned : (h.entry u.region).heldBy x = true := (congrArg (Entry.heldBy · x) (heard.entry u.region)).trans held
  have form := State.updateArrives_yes owned
  have directory := State.updateAtDirectory_restarted owned
  generalize h.updateAtDirectory x u false = w at form directory
  have replica (q : Region) : w.replica q = s.replica q :=
    (State.replica_congr directory.replicas q).trans (heard.replica q)
  have station : w.station = s.station := directory.station.trans heard.station
  by_cases follows : u.version = (s.replica u.region).version + 1
  · have kept := State.updateAtReplica_follows (s := w) (x := x) (u := u) (by rw [replica]; exact current)
      (by rw [replica]; exact follows)
    obtain ⟨s', next, -⟩ := update_below_follows powered other good stays few is form kept station
      fun q ne => (State.replica_setReplica_ne w _ ne).trans (replica q)
    exact ⟨s', next, fun _ gap => absurd follows gap⟩
  · have kept := State.updateAtReplica_gap (s := w) (x := x) (u := u) (by rw [replica]; exact current)
      (by rw [replica]; exact follows)
    have replicas (q : Region) : (w.outdated u.region).raiseVersionGaps.replica q =
        if q = u.region then { s.replica u.region with condition := .stale } else s.replica q := by
      refine (State.replica_outdated q).trans ?_
      rw [replica, replica]
    obtain ⟨s', next, only⟩ := update_below_follows powered other good stays few is form kept station
      fun q ne => (replicas q).trans (if_neg ne)
    have counters : w.host.counters = s.host.counters := directory.counters.trans (congrArg HostLink.counters heard.host)
    have list : w.transfer.repairList = s.transfer.repairList :=
      (congrArg Transfer.repairList directory.transfer).trans heard.repairList
    refine ⟨s', next, fun closed _ => ⟨(only.replica _).trans ((replicas _).trans (if_pos rfl)), ?_,
      only.changeSet ▸ State.mem_changeSet_outdated, ?_⟩⟩
    · rw [only.transfer, ← list]
      refine State.repairList_outdated ?_
      simp only [State.inReception, directory.transfer, heard.reception]
      exact closed
    · rw [only.counters, ← counters]
      rfl

/-- The owner's UPDATE at a replica that is not CURRENT (R62, R63, R85, R88, R94). -/
theorem update_owner_behind (powered : s.powered = true) (other : s.isSelf x = false) (good : u.goodForm = true)
    (stays : s.station ≠ .leaving) (few : s.outOfStep < 15) (held : (s.entry u.region).heldBy x = true)
    (behind : (s.replica u.region).condition ≠ .current) :
    ∃ s', exec (.updateArrival t x u) s = .next s' ∧ (∀ q, q ≠ u.region → s'.replica q = s.replica q) ∧
      (∀ rec, s.transfer.reception = some rec → rec.region = u.region → s'.replicas = s.replicas ∧
        (rec.catchUp.length < 16 →
          s'.transfer.reception = some { rec with catchUp := rec.catchUp ++ [{ sender := x, update := u }] } ∧
            s'.transfer.repairList = s.transfer.repairList ∧ s'.host.counters = s.host.counters) ∧
        (16 ≤ rec.catchUp.length →
          s'.transfer.reception = none ∧
            (rec.kind = .refresh → s'.transfer.repairList = s.transfer.repairList ++ [u.region]) ∧
            s'.host.counters =
              { s.host.counters with transfersAbandoned := raiseCounter s.host.counters.transfersAbandoned })) ∧
      (s.inReception u.region = false → s'.host.counters = s.host.counters ∧
        s'.transfer.reception = s.transfer.reception ∧
        (u.closeAfter = false ∨ (s.replica u.region).condition ≠ .lost → s'.replicas = s.replicas) ∧
        (u.closeAfter = true → (s.replica u.region).condition = .lost →
          s'.replica u.region = { s.replica u.region with condition := .stale, attempts := 0 } ∧
            s'.transfer.repairList = s.transfer.repairList ++ [u.region])) := by
  have heard := (s.advance t).heardFrom_heard x (.update u)
  generalize is : (s.advance t).heardFrom x (.update u) = h at heard
  have owned : (h.entry u.region).heldBy x = true := (congrArg (Entry.heldBy · x) (heard.entry u.region)).trans held
  have form := State.updateArrives_yes owned
  have directory := State.updateAtDirectory_restarted owned
  generalize h.updateAtDirectory x u false = w at form directory
  have replicas : w.replicas = s.replicas := directory.replicas.trans heard.replicas
  have replica (q : Region) : w.replica q = s.replica q := State.replica_congr replicas q
  have station : w.station = s.station := directory.station.trans heard.station
  have counters : w.host.counters = s.host.counters := directory.counters.trans (congrArg HostLink.counters heard.host)
  have list : w.transfer.repairList = s.transfer.repairList :=
    (congrArg Transfer.repairList directory.transfer).trans heard.repairList
  have reception : w.transfer.reception = s.transfer.reception :=
    (congrArg Transfer.reception directory.transfer).trans heard.reception
  have inReception : w.inReception u.region = s.inReception u.region := by simp only [State.inReception, reception]
  rw [State.updateAtReplica_behind (by rw [replica]; exact behind), inReception] at form
  have follows {w' : State} (form : h.updateArrives x u false = w') (same : w'.station = w.station)
      (others : ∀ q, q ≠ u.region → w'.replica q = w.replica q) :=
    update_below_follows powered other good stays few is form (.refl w') (same.trans station) fun q ne => (others q ne).trans (replica q)
  by_cases opened : s.inReception u.region = true
  · obtain ⟨rec, some_, here⟩ : ∃ rec, s.transfer.reception = some rec ∧ rec.region = u.region := by
      simpa [State.inReception, Option.any_eq_true] using opened
    rw [if_pos opened] at form
    by_cases room : rec.catchUp.length < 16
    · have keeps : w.keepForCatchUp x u = w.withTransfer fun y =>
          { y with reception := some { rec with catchUp := rec.catchUp ++ [{ sender := x, update := u }] } } := by
        have room' : rec.catchUp.length < Config.catchUpLimit := room
        simp only [State.keepForCatchUp, reception, some_, if_pos room']
      obtain ⟨s', next, only⟩ := follows (form.trans keeps) rfl fun _ _ => rfl
      refine ⟨s', next, fun q _ => (only.replica q).trans (replica q), fun rec' is' _ => ?_, fun no => absurd opened (by simp [no])⟩
      obtain rfl : rec = rec' := Option.some.inj (some_.symm.trans is')
      refine ⟨only.replicas.trans replicas, fun _ => ⟨?_, ?_, only.counters.trans counters⟩, fun full => absurd room (by omega)⟩
      · rw [only.transfer]
        rfl
      · rw [only.transfer]
        exact list
    · have keeps : w.keepForCatchUp x u = w.abandonReception := by
        have room' : ¬ rec.catchUp.length < Config.catchUpLimit := room
        simp only [State.keepForCatchUp, reception, some_, if_neg room']
      rw [State.abandonReception_eq (reception.trans some_)] at keeps
      obtain ⟨s', next, only⟩ := follows (form.trans keeps) rfl fun _ _ => rfl
      refine ⟨s', next, fun q _ => (only.replica q).trans (replica q), fun rec' is' _ => ?_, fun no => absurd opened (by simp [no])⟩
      obtain rfl : rec = rec' := Option.some.inj (some_.symm.trans is')
      refine ⟨only.replicas.trans replicas, fun few' => absurd few' room, fun _ => ⟨?_, fun refresh => ?_, ?_⟩⟩
      · rw [only.transfer]
        rfl
      · rw [only.transfer]
        refine (if_pos refresh).trans ?_
        rw [list, here]
      · rw [only.counters, ← counters]
        rfl
  · have apart : ∀ rec, s.transfer.reception = some rec → rec.region = u.region → False := fun rec some_ here =>
      opened (by simp [State.inReception, some_, here])
    rw [if_neg opened] at form
    by_cases returns : u.closeAfter = true ∧ (s.replica u.region).condition = .lost
    · obtain ⟨closes, lost⟩ := returns
      rw [if_pos closes, State.returnLost_eq (by rw [replica]; exact lost)] at form
      obtain ⟨s', next, only⟩ := follows form rfl fun q ne => (State.replica_returned q).trans (if_neg ne)
      refine ⟨s', next, fun q ne => (only.replica q).trans ((State.replica_returned q).trans ((if_neg ne).trans (replica q))),
        fun rec some_ here => (apart rec some_ here).elim, fun closed => ⟨only.counters.trans counters, ?_,
          fun no => no.elim (fun no => absurd closes (by simp [no])) fun no => absurd lost no, fun _ _ => ⟨?_, ?_⟩⟩⟩
      · rw [only.transfer]
        exact reception
      · rw [only.replica, State.replica_returned, if_pos rfl, replica]
      · rw [only.transfer, ← list]
        exact State.repairList_outdated (s := w.setReplica u.region _) (inReception.trans closed)
    · have same : (if u.closeAfter then w.returnLost u.region else w) = w := by
        by_cases closes : u.closeAfter = true
        · rw [if_pos closes, State.returnLost_of_ne (by rw [replica]; exact fun lost => returns ⟨closes, lost⟩)]
        · exact if_neg closes
      rw [same] at form
      obtain ⟨s', next, only⟩ := follows form rfl fun _ _ => rfl
      refine ⟨s', next, fun q _ => (only.replica q).trans (replica q), fun rec some_ here => (apart rec some_ here).elim,
        fun _ => ⟨only.counters.trans counters, ?_, fun _ => only.replicas.trans replicas, fun closes lost =>
          absurd ⟨closes, lost⟩ returns⟩⟩
      rw [only.transfer]
      exact reception

end Below

/-! ## The resync that a rise to 16 regions requests (R54, R112, R115) -/

/-- One region more is out of step. -/
theorem State.outOfStep_lt {s t : State} {r : Region} (few : ∀ q, s.behind q = true → t.behind q = true)
    (before : s.behind r = false) (after : t.behind r = true) : s.outOfStep < t.outOfStep := by
  rw [State.outOfStep_eq, State.outOfStep_eq]
  have mem : r ∈ allRegions := List.mem_finRange r
  generalize allRegions = rs at mem
  have most (qs : List Region) : qs.countP s.behind ≤ qs.countP t.behind := List.countP_mono_left fun q _ => few q
  induction rs with
  | nil => exact nomatch mem
  | cons q rs ih =>
    simp only [List.countP_cons]
    rcases List.mem_cons.1 mem with rfl | mem
    · have rest := most rs
      simp only [before, after, Bool.false_eq_true, if_true, if_false]
      omega
    · have rest := ih mem
      by_cases is : s.behind q = true
      · simp only [is, few q is, if_true]
        omega
      · simp only [is, Bool.false_eq_true, if_false]
        omega

/-- The station that a rise of R54 takes to LEAVING for a resync (R115). -/
def State.resyncs (s : State) : State :=
  (s.withMembership fun m => { m with faultCause := .resyncThreshold }).enterLeaving .resync

/-- The regions and the membership record at the entry into LEAVING for a resync (R111, R115). -/
theorem State.resyncs_lineOnly (s : State) :
    LineOnly (s.core.stopRepair.withMembership fun m =>
      { m with station := .leaving, leaveCause := some .resync, faultCause := .resyncThreshold }) s.resyncs :=
  (s.withMembership fun m => { m with faultCause := .resyncThreshold }).enterLeaving_lineOnly .resync

theorem State.conclude_requests {s before : State} (member : before.station = .member) (still : s.station = .member)
    (rise : before.outOfStep < s.outOfStep) (many : 16 ≤ s.outOfStep) : s.conclude before = s.resyncs.conclude before := by
  have many' : Config.resyncThreshold ≤ s.outOfStep := many
  have requests : s.requestResync before before.outOfStep = s.resyncs := by
    simp [State.requestResync, member, still, rise, many', State.resyncs]
  have left : s.resyncs.requestResync before before.outOfStep = s.resyncs :=
    State.requestResync_of_inStep (.inr (.inr (.inr (by rw [s.resyncs_lineOnly.station]; exact nofun))))
  rw [State.conclude, State.concludeFrom, requests, State.conclude, State.concludeFrom, left]

theorem State.conclude_of_holding_commandOnly {s before : State} (step : s.inStep before)
    (holds : 0 < s.heldCount + s.pendingCount) : CommandOnly s (s.conclude before) := by
  have retried : CommandOnly s (s.retryOpen before) := (CommandOnly.refl s).retryOpen
  rw [State.conclude, State.concludeFrom, State.requestResync_of_inStep step, State.endReleases_of_holding]
  · exact retried
  · rw [retried.heldCount, retried.pendingCount]
    exact holds

/-- The end of the releases of a resync, whether or not it comes with the event (R112, R114). -/
theorem State.endReleases_resync_cases {s : State} (resync : s.membership.leaveCause = some .resync) :
    s.endReleases.membership.faultCause = s.membership.faultCause ∧
      (s.host.stateChanged = true → s.endReleases.host.stateChanged = true) := by
  unfold State.endReleases
  split
  · rw [resync]
    dsimp only
    obtain ⟨v, form, changed, -⟩ := s.enterJoining_places
    refine ⟨(LineOnly.of_core_eq (State.core_enterJoining s)).faultCause, fun _ => ?_⟩
    rw [form, State.placeAttempt_host]
    exact changed
  · exact ⟨rfl, id⟩

/-- What the conclusion leaves of an event that took a MEMBER to 16 regions out of step or more (R54, R112, R114, R115). -/
theorem State.conclude_resyncs {s before : State} (member : before.station = .member) (still : s.station = .member)
    (rise : before.outOfStep < s.outOfStep) (many : 16 ≤ s.outOfStep) :
    (s.conclude before).membership.faultCause = .resyncThreshold ∧ (s.conclude before).host.stateChanged = true ∧
      (0 < s.heldCount + s.pendingCount → (s.conclude before).station = .leaving ∧
        (s.conclude before).membership.leaveCause = some .resync ∧
        ∀ r, ((s.conclude before).replica r).condition = (s.replica r).condition) ∧
      (s.heldCount + s.pendingCount = 0 → s.liu.transmitter = .off → (s.conclude before).station = .joining) := by
  have line := s.resyncs_lineOnly
  have held : s.resyncs.heldCount = s.heldCount := line.heldCount
  have pending : s.resyncs.pendingCount = s.pendingCount := line.pendingCount
  have step : s.resyncs.inStep before := .inr (.inr (.inr (by rw [line.station]; exact nofun)))
  have changed : s.resyncs.host.stateChanged = true := by
    rw [State.resyncs, State.enterLeaving_eq]
    exact State.setStation_stateChanged _ _
  rw [State.conclude_requests member still rise many]
  by_cases holds : 0 < s.heldCount + s.pendingCount
  · have kept := State.conclude_of_holding_commandOnly step (by rw [held, pending]; exact holds)
    refine ⟨kept.faultCause.trans line.faultCause, kept.stateChanged.trans changed, fun _ =>
      ⟨kept.station.trans line.station, kept.leaveCause.trans line.leaveCause, fun r => ?_⟩, fun zero => absurd holds (by omega)⟩
    rw [kept.replica, line.replica]
    rfl
  · have zero : s.heldCount = 0 ∧ s.pendingCount = 0 := by omega
    have either := State.endReleases_resync_cases (s := s.resyncs.retryOpen before)
      ((s.resyncs.retryOpen_lineOnly before).leaveCause.trans line.leaveCause)
    have retried : CommandOnly s.resyncs (s.resyncs.retryOpen before) := (CommandOnly.refl _).retryOpen
    have form : s.resyncs.conclude before = (s.resyncs.retryOpen before).endReleases := by
      rw [State.conclude, State.concludeFrom, State.requestResync_of_inStep step]
    rw [form]
    refine ⟨either.1.trans (retried.faultCause.trans line.faultCause), either.2 (retried.stateChanged.trans changed),
      fun some_ => absurd some_ holds, fun _ off => ?_⟩
    rw [← form]
    have resync := State.conclude_resync (s := s.withMembership fun m => { m with faultCause := .resyncThreshold })
      (before := before) off zero.1 zero.2
    rw [show s.resyncs.conclude before = _ from resync]
    exact (LineOnly.of_core_eq (State.core_enterJoining _)).station

/-- The owner's UPDATE of another station touches no holding and no claim of this one. -/
theorem Restarted.ownCounts {s t : State} {x : Station} {u : Update} (h : Restarted x u s t) (other : s.isSelf x = false)
    (held : (s.entry u.region).heldBy x = true) : t.heldCount = s.heldCount ∧ t.pendingCount = s.pendingCount := by
  obtain ⟨l, side, state⟩ := Entry.heldBy_iff.1 held
  have self (y : Station) : t.isSelf y = s.isSelf y := h.toStationKept.isSelf y
  have after : (∃ l' side', (t.entry u.region).state = .held x l' side') ∨
      ∃ why d, (t.entry u.region).state = .settling why d := by
    by_cases closes : u.closeAfter = true
    · exact .inr ⟨_, _, (h.closed closes).1⟩
    · obtain ⟨side', state'⟩ := (h.lease (by simpa using closes)).1
      exact .inl ⟨_, side', state'⟩
  have heldSame (q : Region) : t.heldByOwn q = s.heldByOwn q := by
    by_cases eq : q = u.region
    · rw [eq]
      obtain ⟨l', side', state'⟩ | ⟨why, d, state'⟩ := after <;>
        simp only [State.heldByOwn, state, state', self, other]
    · simp only [State.heldByOwn, h.others q eq, self]
  have claimedSame (q : Region) : t.claimedByOwn q = s.claimedByOwn q := by
    by_cases eq : q = u.region
    · rw [eq]
      obtain ⟨l', side', state'⟩ | ⟨why, d, state'⟩ := after <;>
        simp only [State.claimedByOwn, state, state']
    · simp only [State.claimedByOwn, h.others q eq, self]
  simp only [State.heldCount, State.pendingCount, funext heldSame, funext claimedSame, and_self]

/-- Another station's UPDATE that takes a CURRENT replica out of step: what it leaves of this station's own holdings (R61,
R64). -/
theorem State.updateArrives_outdates {s : State} {x : Station} {u : Update} (other : s.isSelf x = false)
    (known : (s.entry u.region).state ≠ .unknown) (current : (s.replica u.region).condition = .current)
    (apart : (s.entry u.region).heldBy x = false ∨ u.version ≠ (s.replica u.region).version + 1) :
    ∃ w, CommandOnly w (s.updateArrives x u false) ∧ w.station = s.station ∧ w.heldCount = s.heldCount ∧
      w.pendingCount = s.pendingCount ∧ w.liu.transmitter = s.liu.transmitter ∧
      ∀ q, w.replica q = if q = u.region then { s.replica u.region with condition := .stale } else s.replica q := by
  by_cases held : (s.entry u.region).heldBy x = true
  · have gap := apart.resolve_left (by simp [held])
    have form := State.updateArrives_yes held
    have directory := State.updateAtDirectory_restarted held
    generalize s.updateAtDirectory x u false = w at form directory
    have replica (q : Region) : w.replica q = s.replica q := State.replica_congr directory.replicas q
    have kept := State.updateAtReplica_gap (s := w) (x := x) (u := u) (by rw [replica]; exact current)
      (by rw [replica]; exact gap)
    rw [← form] at kept
    obtain ⟨heldCount, pendingCount⟩ := directory.ownCounts other held
    refine ⟨_, kept, directory.station, heldCount, pendingCount, directory.transmitter, fun q => ?_⟩
    refine (State.replica_outdated q).trans ?_
    rw [replica, replica]
  · have foreign : (s.entry u.region).heldBy x = false := by simpa using held
    have kept := State.updateAtReplica_foreign (x := x) current
    rw [← State.updateArrives_no foreign known] at kept
    exact ⟨_, kept, rfl, rfl, rfl, rfl, fun q => State.replica_outdated q⟩

theorem Heard.heldCount {s t : State} (h : Heard s t) : t.heldCount = s.heldCount := by
  simp only [State.heldCount]
  exact congrArg (List.countP · allRegions) (funext fun r => by simp only [State.heldByOwn, h.entry, h.isSelf])

theorem Heard.pendingCount {s t : State} (h : Heard s t) : t.pendingCount = s.pendingCount := by
  simp only [State.pendingCount]
  exact congrArg (List.countP · allRegions) (funext fun r => by simp only [State.claimedByOwn, h.entry, h.isSelf])

/-- The UPDATE that takes a MEMBER to 16 regions out of step or more (R54, R115). -/
theorem update_resyncs {t : Time} {x : Station} {u : Update} {s : State} (powered : s.powered = true)
    (other : s.isSelf x = false) (member : s.station = .member) (many : 15 ≤ s.outOfStep) (good : u.goodForm = true)
    (known : (s.entry u.region).state ≠ .unknown) (current : (s.replica u.region).condition = .current)
    (apart : (s.entry u.region).heldBy x = false ∨ u.version ≠ (s.replica u.region).version + 1) :
    ∃ s', exec (.updateArrival t x u) s = .next s' ∧ s'.membership.faultCause = .resyncThreshold ∧
      s'.host.stateChanged = true ∧
      (0 < s.heldCount + s.pendingCount →
        s'.station = .leaving ∧ s'.membership.leaveCause = some .resync ∧
          (s'.replica u.region).condition = .stale) ∧
      (s.heldCount + s.pendingCount = 0 → s.liu.transmitter = .off → s'.station = .joining) := by
  have heard := (s.advance t).heardFrom_heard x (.update u)
  have next : exec (.updateArrival t x u) s = .next _ :=
    arrival_of_other (f := .update u) (deliver := fun own s => s.updateArrives x u own.isSome) powered other good
  generalize (s.advance t).heardFrom x (.update u) = h at heard next
  have entry : h.entry u.region = s.entry u.region := heard.entry _
  have replica (q : Region) : h.replica q = s.replica q := heard.replica q
  obtain ⟨w, kept, station, held, pending, transmitter, replicas⟩ := State.updateArrives_outdates (s := h) (x := x) (u := u)
    ((heard.isSelf x).trans other) (by rw [entry]; exact known) (by rw [replica]; exact current)
    (by rw [entry, replica]; exact apart)
  have step : s.outOfStep < (h.updateArrives x u false).outOfStep := by
    rw [kept.outOfStep]
    refine State.outOfStep_lt (r := u.region) (fun q behind => ?_) (by simp [State.behind, current]) ?_
    · by_cases eq : q = u.region
      · simp [eq, State.behind, current] at behind
      · simpa only [State.behind, replicas q, if_neg eq, replica] using behind
    · simp only [State.behind, replicas, if_true]
      rfl
  have still : (h.updateArrives x u false).station = .member :=
    kept.station.trans (station.trans (heard.station.trans member))
  obtain ⟨fault, changed, holding, free⟩ := State.conclude_resyncs (s := h.updateArrives x u false) (before := s.advance t) member
    still step (by omega)
  have heldSame : (h.updateArrives x u false).heldCount = s.heldCount :=
    kept.heldCount.trans (held.trans heard.heldCount)
  have pendingSame : (h.updateArrives x u false).pendingCount = s.pendingCount :=
    kept.pendingCount.trans (pending.trans heard.pendingCount)
  rw [heldSame, pendingSame] at holding free
  refine ⟨_, next, fault, changed, fun holds => ⟨(holding holds).1, (holding holds).2.1, ?_⟩, fun zero off =>
    free zero (kept.transmitter.trans (transmitter.trans (heard.transmitter.trans off)))⟩
  refine ((holding holds).2.2 u.region).trans ?_
  rw [kept.replica, replicas, if_pos rfl]

/-- Settles O35. -/
theorem updateOutOfStepMakesStale : Obligations.UpdateOutOfStepMakesStale := by
  refine ⟨fun t x u s powered other stays few good => ?_, fun t x u s powered other member many good known current apart =>
    update_resyncs powered other member many good known current apart⟩
  by_cases unknown : (s.entry u.region).state = .unknown
  · have notHeld : (s.entry u.region).heldBy x = true → False := fun held => by
      obtain ⟨l, side, state⟩ := Entry.heldBy_iff.1 held
      exact nomatch unknown.symm.trans state
    obtain ⟨s', next, replicas, directory, counters⟩ := update_unknown (t := t) powered other good stays few unknown
    exact ⟨s', next, fun _ => ⟨replicas, directory, counters⟩, fun held => (notHeld held).elim, fun held => (notHeld held).elim,
      fun known => absurd unknown known⟩
  · by_cases held : (s.entry u.region).heldBy x = true
    · have owner : (s.entry u.region).heldBy x ≠ false := by simp [held]
      by_cases current : (s.replica u.region).condition = .current
      · obtain ⟨s', next, gap⟩ := update_owner_current (t := t) powered other good stays few held current
        exact ⟨s', next, fun is => absurd is unknown, fun _ _ closed ne => gap closed ne, fun _ no => absurd current no,
          fun _ no => absurd no owner⟩
      · obtain ⟨s', next, behind⟩ := update_owner_behind (t := t) powered other good stays few held current
        exact ⟨s', next, fun is => absurd is unknown, fun _ is => absurd is current, fun _ _ => behind,
          fun _ no => absurd no owner⟩
    · obtain ⟨s', next, foreign⟩ := update_foreign (t := t) powered other good stays few unknown (by simpa using held)
      exact ⟨s', next, fun is => absurd is unknown, fun is => absurd is held, fun is => absurd is held, fun _ _ => foreign⟩

end Sys2Proof.Machine
end

section
/-! PROOF. The echoes of this station's own CLAIM, UPDATE, RENEW and RELEASE at the command unit (R7, R15, R27, R108, R153, R167,
R172, R173, R176, R184 to R187). -/

-- One declaration at a time: side by side, the case splits of these proofs want more threads than the memory limit allows.
set_option Elab.async false

namespace Sys2Proof.Machine

/-! ## The echo (R142, R153) -/

/-- The ranking after an echo (R142). -/
theorem State.echoed_ranking (s : State) (x : Station) :
    (s.echoed x).liu.lastSender = some x ∧ (s.echoed x).liu.fallback = false ∧ (s.echoed x).liu.activityEnd = s.now := by
  have left : (s.lineHeard x).leaveQueue.liu.lastSender = some x ∧ (s.lineHeard x).leaveQueue.liu.fallback = false ∧
      (s.lineHeard x).leaveQueue.liu.activityEnd = s.now := by
    simp only [State.leaveQueue, State.withLiu_liu]
    split
    next q _ _ => cases q <;> exact ⟨rfl, rfl, rfl⟩
    all_goals exact ⟨rfl, rfl, rfl⟩
  rw [State.echoed]
  generalize (s.lineHeard x).leaveQueue = v at left ⊢
  have noted : (v.ownNoted x).liu = v.liu := by
    unfold State.ownNoted
    split <;> rfl
  rw [State.ownHeard_eq]
  rw [← noted] at left
  generalize v.ownNoted x = w at left
  split <;> exact left

/-- An event in which no OPEN waits ends with what the blocks make of the echo (R54, R170). -/
theorem arrival_own_follows {t : Time} {x : Station} {f : Frame} {deliver : Option Queued → State → State} {q : QueueId} {i : Queued}
    {rest : List Queued} {s d : State} (powered : s.powered = true) (self : s.isSelf x = true) (good : f.goodForm = true)
    (flies : s.inFlight q f i rest) (none : s.noneWaits) (is : deliver (some i) ((s.advance t).echoed x) = d)
    (stays : d.station ≠ .leaving) (step : d.inStep (s.advance t)) : arrival t x f deliver s = .next d := by
  rw [arrival_of_own powered self good flies, is, State.conclude_eq step none stays]

/-! ## The echo of the own CLAIM (R7, R15, R41, R167) -/

/-- `t` differs from `s` in the reply queue, the claim number, the budget list, the free count and the counters alone. -/
structure ObjectionOnly (s t : State) : Prop extends RegionsKept s t where
  unit : t.unit = s.unit
  membership : t.membership = s.membership
  line : t.liu.ownSide = s.liu.ownSide
  lastSender : t.liu.lastSender = s.liu.lastSender
  changeSet : t.host.changeSet = s.host.changeSet
  completionQueue : t.host.completionQueue = s.host.completionQueue

theorem ObjectionOnly.trans {a s t : State} (h : ObjectionOnly a s) (g : ObjectionOnly s t) : ObjectionOnly a t :=
  ⟨h.toRegionsKept.trans g.toRegionsKept, g.unit.trans h.unit, g.membership.trans h.membership, g.line.trans h.line,
    g.lastSender.trans h.lastSender, g.changeSet.trans h.changeSet, g.completionQueue.trans h.completionQueue⟩

theorem State.append_lastSender (s : State) (q : QueueId) (i : Item) : (s.append q i).liu.lastSender = s.liu.lastSender := by
  unfold State.append
  split <;> cases q <;> rfl

theorem State.placeAllWaiting_lastSender (s : State) (q : QueueId) :
    (s.placeAllWaiting q).liu.lastSender = s.liu.lastSender := by
  have one (u : State) : (u.placeWaiting q).liu.lastSender = u.liu.lastSender := by
    unfold State.placeWaiting
    split
    · rfl
    · split
      · rw [State.append_lastSender]
        cases q <;> rfl
      · rfl
  unfold State.placeAllWaiting
  generalize s.liu.waiting q = items
  induction items generalizing s with
  | nil => rfl
  | cons _ rest ih => exact (ih _).trans (one s)

theorem State.placeObject_objectionOnly (s : State) (i : Item) : ObjectionOnly s (s.placeObject i) := by
  have placed : ReplyOnly s (s.placeAllWaiting .reply) := (ReplyOnly.refl s).placeAllWaiting
  have same := s.placeAllWaiting_lastSender .reply
  unfold State.placeObject
  dsimp only
  split
  · have appended := placed.append (i := i)
    exact ⟨appended.regionsKept, appended.unit, appended.membership, appended.line,
      (State.append_lastSender _ _ _).trans same, congrArg HostLink.changeSet appended.host,
      congrArg HostLink.completionQueue appended.host⟩
  · have changeSet : (s.placeAllWaiting .reply).host.changeSet = s.host.changeSet := congrArg HostLink.changeSet placed.host
    have completed : (s.placeAllWaiting .reply).host.completionQueue = s.host.completionQueue :=
      congrArg HostLink.completionQueue placed.host
    exact ⟨placed.regionsKept.trans ⟨⟨rfl, rfl, rfl, rfl, rfl, rfl⟩, rfl⟩, placed.unit, placed.membership, placed.line, same,
      changeSet, completed⟩

theorem State.claimAtBudget_objectionOnly (s : State) (c : Claim) (r : Region) : ObjectionOnly s (s.claimAtBudget c r) := by
  have budget (b : List BudgetEntry) : ObjectionOnly s { s with budget := b } :=
    ⟨⟨⟨rfl, rfl, rfl, rfl, rfl, rfl⟩, rfl⟩, rfl, rfl, rfl, rfl, rfl, rfl⟩
  unfold State.claimAtBudget
  dsimp only
  split
  · split
    · exact budget _
    · split
      · exact (budget _).trans (State.placeObject_objectionOnly _ _)
      · exact budget _
  · exact ⟨.refl s, rfl, rfl, rfl, rfl, rfl, rfl⟩

/-- This station's own CLAIM at its directory (R7, R10): a FREE region becomes its claim. -/
theorem State.claimAtDirectory_own {s : State} {c : Claim} (self : s.isSelf c.station = true) (r : Region) :
    s.claimAtDirectory c r true =
      if (s.entry r).isFree then s.setEntry r { s.entry r with state := .claimed c (s.now + 250000), overheard := none } else s := by
  have silent : s.objectsTo c.station r = false := by simp [State.objectsTo, self]
  have interval : Config.confirmationInterval = 250000 := rfl
  cases state : (s.entry r).state <;>
    simp [State.claimAtDirectory, state, Entry.isFree, EntryState.view, silent, State.noteOverheard, self, State.changeEntry_silent,
      interval]

theorem State.claimAtBlocks_own {s : State} {c : Claim} (self : s.isSelf c.station = true) (r : Region) :
    s.claimAtBlocks c r true = (s.claimAtDirectory c r true).claimAtBudget c r := by
  have silent : s.objectsTo c.station r = false := by simp [State.objectsTo, self]
  simp [State.claimAtBlocks, silent]

theorem State.endCommand_liu {s : State} {run : Running} {status : Status} {reason : Reason} {v : Version} {n : Nat} {p : Int}
    {found exhausted released : Bool} : (s.endCommand run status reason v n p found exhausted released).liu = s.liu :=
  State.post_liu _ _

theorem State.openSetback_liu (s : State) (run : Running) (clock : WaitClock) (why : Reason) :
    (s.openSetback run clock why).liu = s.liu := by
  unfold State.openSetback
  split
  · exact State.endCommand_liu
  · cases clock
    · exact State.endCommand_liu
    · rfl
    · exact State.endCommand_liu

/-- The station after its own CLAIM at both blocks (R7, R15, R41). -/
theorem State.claimAtBlocks_own_follows {s : State} {c : Claim} (self : s.isSelf c.station = true) (r : Region) :
    ∃ v, ObjectionOnly v (s.claimAtBlocks c r true) ∧ v.unit = s.unit ∧ v.liu = s.liu ∧ v.host = s.host ∧
      v.membership = s.membership ∧ v.replicas = s.replicas ∧ (∀ q, q ≠ r → v.entry q = s.entry q) ∧
      ((s.entry r).isFree = true → (v.entry r).state = .claimed c (s.now + 250000)) ∧
      ((s.entry r).isFree = false → v.entry r = s.entry r) := by
  rw [State.claimAtBlocks_own self]
  refine ⟨_, State.claimAtBudget_objectionOnly _ c r, ?_⟩
  rw [State.claimAtDirectory_own self]
  cases free : (s.entry r).isFree
  · exact ⟨rfl, rfl, rfl, rfl, rfl, fun _ _ => rfl, nofun, fun _ => rfl⟩
  · refine ⟨rfl, rfl, rfl, rfl, rfl, fun q ne => State.entry_setEntry_ne s _ ne, fun _ => ?_, nofun⟩
    exact congrArg Entry.state (State.entry_setEntry_self s r _)

theorem Entry.isFree_iff {e : Entry} : e.isFree = true ↔ e.state = .free := by
  cases state : e.state <;> simp [Entry.isFree, state, EntryState.view]

/-- *claim pending* and *contended* at the OPEN whose CLAIM this is (R167). -/
theorem State.noticeClaimPending_of_open {s : State} {run : Running} {clock : WaitClock} {before : Reason}
    (executing : s.unit = .executing run) (queued : run.progress = .openClaimQueued clock before) :
    s.noticeClaimPending run.region = s.proceed run (.openClaimPending clock) := by
  simp only [State.noticeClaimPending, State.running_iff.2 executing, queued, if_true]

theorem State.noticeContended_of_open {s : State} {run : Running} {clock : WaitClock} {before : Reason}
    (executing : s.unit = .executing run) (queued : run.progress = .openClaimQueued clock before) :
    s.noticeContended run.region = s.openSetback run clock .contended := by
  simp only [State.noticeContended, State.running_iff.2 executing, queued, if_true]

/-- Settles O32. -/
theorem ownClaimEchoDecidesTheOpen : Obligations.OwnClaimEchoDecidesTheOpen := by
  rintro t x r n i rest run clock before s powered member self flies executing rfl unaborted queued
  have echo := State.echoed_echo (s := s.advance t) (x := x) flies
  have ranking := (s.advance t).echoed_ranking x
  generalize is : (s.advance t).echoed x = e at echo ranking
  have entry (q : Region) : e.entry q = s.entry q := echo.entry q
  obtain ⟨v, objection, unit, liu, host, membership, replicas, others, claimed, kept⟩ := State.claimAtBlocks_own_follows (s := e)
    (c := { station := x, number := n }) ((echo.isSelf x).trans self) run.region
  rw [entry] at claimed kept
  generalize blocks : e.claimAtBlocks { station := x, number := n } run.region true = w at objection
  have executing' : w.unit = .executing run := objection.unit.trans (unit.trans (echo.unit.trans executing))
  have form : e.claimArrives x run.region n true =
      if (s.entry run.region).isFree then w.proceed run (.openClaimPending clock) else w.openSetback run clock .contended := by
    simp only [State.claimArrives, blocks, if_true, entry, State.noticeClaimPending_of_open executing' queued,
      State.noticeContended_of_open executing' queued]
  have only : CommandOnly w (e.claimArrives x run.region n true) := by
    rw [form]
    exact (CommandOnly.refl w).proceed.ite (CommandOnly.refl w).openSetback
  have line : (e.claimArrives x run.region n true).liu = w.liu := by
    rw [form]
    split
    · rfl
    · exact State.openSetback_liu _ _ _ _
  have membership' : (e.claimArrives x run.region n true).membership = e.membership :=
    only.membership.trans (objection.membership.trans membership)
  have same : (e.claimArrives x run.region n true).replicas = s.replicas :=
    only.replicas.trans (objection.replicas.trans (replicas.trans echo.replicas))
  have station : (e.claimArrives x run.region n true).station = .member :=
    (congrArg Membership.station membership').trans (echo.station.trans member)
  have own : (e.claimArrives x run.region n true).liu.ownSide = e.liu.ownSide := by
    rw [line, objection.line, liu]
  have changes : w.host.changeSet = s.host.changeSet :=
    objection.changeSet.trans ((congrArg HostLink.changeSet host).trans (congrArg HostLink.changeSet echo.host))
  have completed : w.host.completionQueue = s.host.completionQueue :=
    objection.completionQueue.trans ((congrArg HostLink.completionQueue host).trans (congrArg HostLink.completionQueue echo.host))
  have entries (q : Region) : (e.claimArrives x run.region n true).entry q = v.entry q := (only.entry q).trans (objection.entry q)
  have next : exec (.claimArrival t x run.region n) s = .next (e.claimArrives x run.region n true) :=
    arrival_own_follows (f := .claim run.region n) (deliver := fun own s => s.claimArrives x run.region n own.isSome) powered self rfl
      flies (State.noneWaits_of_unit executing (by rw [queued]; exact nofun)) (by rw [is]; rfl)
      (by rw [station]; exact nofun) (State.inStep_of_replicas same)
  have ownField {α : Type} (f : Liu → α) : f (e.claimArrives x run.region n true).liu.ownSide = f e.liu.ownSide := congrArg f own
  refine ⟨_, next, (ownField Liu.transmitter).trans echo.off, (ownField Liu.failures).trans echo.failures, ?_, ?_, ?_,
    only.changeSet.trans changes, same, fun q ne => (entries q).trans ((others q ne).trans (entry q)), fun free => ?_,
    fun taken => ⟨(entries _).trans (kept ?_), fun noWait room => ?_⟩⟩
  · rw [line, objection.lastSender, liu, ranking.1]
  · refine (ownField Liu.originated).trans (echo.originated.trans ?_)
    rw [show (s.advance t).station = .member from member]
    rfl
  · rw [membership']
    exact echo.presence member
  · have isFree := Entry.isFree_iff.2 free
    refine ⟨?_, ?_⟩
    · rw [entries, claimed isFree, echo.now]
      rfl
    · rw [form, if_pos isFree]
      rfl
  · simpa using fun is => taken (Entry.isFree_iff.1 is)
  · have notFree : ¬ (s.entry run.region).isFree = true := fun is => taken (Entry.isFree_iff.1 is)
    have ended : e.claimArrives x run.region n true = w.endCommand run .contended .contended := by
      rw [form, if_neg notFree, noWait]
      simp only [State.openSetback, unaborted, Bool.false_eq_true, if_false]
      rfl
    rw [ended, State.endCommand_of_room (by rw [completed]; exact room)]
    exact ⟨rfl, _, congrArg (· ++ [_]) completed, rfl, rfl, rfl⟩

end Sys2Proof.Machine
end

section
/-! PROOF. The echoes that end a WRITE, RENEW or CLOSE and go on with a COPY or FILL (R27, R29, R60, R172, R173, R176, R184 to
R187). -/

-- One declaration at a time: side by side, the case splits of these proofs want more threads than the memory limit allows.
set_option Elab.async false

namespace Sys2Proof.Machine

/-! ## An own UPDATE at the directory and the replica (R28, R60, R68) -/

section OwnUpdate

variable {s : State} {x : Station} {u : Update} {run : Running}

/-- What the directory makes of an own frame leaves the command and the host link (R32). -/
theorem State.settle_silent (s : State) (r : Region) (why : SettleReason) (x : Station) :
    (s.settle r why x false).unit = s.unit ∧ (s.settle r why x false).host = s.host := by
  unfold State.settle
  dsimp only
  rw [State.changeEntry_silent]
  split <;> exact ⟨rfl, rfl⟩

theorem State.restartLease_unit (s : State) (r : Region) : (s.restartLease r).unit = s.unit := by
  unfold State.restartLease
  split <;> rfl

theorem State.updateAtDirectory_echo (s : State) (x : Station) (u : Update) :
    DirectoryOnly s (s.updateAtDirectory x u true) ∧ (s.updateAtDirectory x u true).unit = s.unit ∧
      (s.updateAtDirectory x u true).host = s.host := by
  have restarted := DirectoryOnly.restartLease s u.region
  have unit := s.restartLease_unit u.region
  have host := s.restartLease_host u.region
  unfold State.updateAtDirectory
  dsimp only
  split
  · obtain ⟨unit', host'⟩ := (s.restartLease u.region).settle_silent u.region .closedByUpdate x
    exact ⟨restarted.settle, unit'.trans unit, host'.trans host⟩
  · exact ⟨restarted, unit, host⟩

/-- The station after its own UPDATE at the directory and the replica, before the command hears of it (R28, R60). -/
def State.echoWritten (s : State) (x : Station) (u : Update) : State :=
  (s.updateAtDirectory x u true).setReplica u.region ((s.replica u.region).applied u)

/-- The commands whose frames are UPDATEs: WRITE, COPY and FILL. -/
def Progress.writes : Progress → Prop
  | .write | .chunk _ _ _ _ _ _ => True
  | .openWaiting _ _ | .openClaimQueued _ _ | .openClaimPending _ | .close | .renew | .scan _ _ _ => False

theorem State.noticeUpdateApplied_own {r : Region} (executing : s.unit = .executing run) (writes : run.progress.writes)
    (self : s.isSelf x = true) : s.noticeUpdateApplied r x = s := by
  unfold State.noticeUpdateApplied
  rw [State.running_iff.2 executing]
  dsimp only
  split
  · simp [self]
  next scan => simp [scan, Progress.writes] at writes
  · rfl

/-- The echo of the next UPDATE of the command in execution (R60, R164). -/
theorem State.updateArrives_own (executing : s.unit = .executing run) (writes : run.progress.writes) (self : s.isSelf x = true)
    (held : (s.entry u.region).heldBy x = true) (current : (s.replica u.region).condition = .current)
    (follows : u.version = (s.replica u.region).version + 1) :
    s.updateArrives x u true =
      if u.closeAfter then ((s.echoWritten x u).updateEchoed u).noticeNoLongerHeld u.region .closeAfterEcho
      else (s.echoWritten x u).updateEchoed u := by
  obtain ⟨only, unit, -⟩ := s.updateAtDirectory_echo x u
  have replica : (s.updateAtDirectory x u true).replica u.region = s.replica u.region := State.replica_congr only.replicas _
  have written : (s.updateAtDirectory x u true).updateAtReplica .yes x u true = s.echoWritten x u := by
    have follows' : u.version = nextVersion ((s.updateAtDirectory x u true).replica u.region).version := by
      rw [replica]
      exact follows
    have applied := State.noticeUpdateApplied_own (s := s.echoWritten x u) (r := u.region) (x := x) (unit.trans executing) writes
      ((only.isSelf x).trans self)
    simp only [State.updateAtReplica, State.isCurrent, replica, current, beq_self_eq_true, if_true, State.updateAtCurrent]
    rw [replica] at follows'
    rw [if_pos follows']
    exact applied
  simp only [State.updateArrives, State.ownerAnswer_yes held, if_true, written, Bool.true_and, decide_true]

theorem State.noticeNoLongerHeld_of_idle {r : Region} {cause : HoldingEnd} (idle : s.unit = .idle) :
    s.noticeNoLongerHeld r cause = s := by
  simp [State.noticeNoLongerHeld, State.running, idle]

/-- The echo of an UPDATE of the command in execution: what the station is after it. -/
theorem updateEcho_follows {t : Time} {i : Queued} {rest : List Queued} {l d : Time} (powered : s.powered = true)
    (member : s.station = .member) (self : s.isSelf x = true) (flies : s.inFlight .originated (.update u) i rest)
    (good : u.goodForm = true) (executing : s.unit = .executing run) (writes : run.progress.writes)
    (held : (s.entry u.region).state = .held x l (.running d)) (current : (s.replica u.region).condition = .current)
    (follows : u.version = (s.replica u.region).version + 1) :
    let e := (s.advance t).echoed x
    let v := (e.echoWritten x u).updateEchoed u
    let s' := if u.closeAfter then v.noticeNoLongerHeld u.region .closeAfterEcho else v
    Echo .originated rest (s.advance t) e ∧ exec (.updateArrival t x u) s = .next s' ∧ (s'.replica u.region).version = u.version := by
  intro e v s'
  have echo : Echo .originated rest (s.advance t) e := State.echoed_echo (x := x) flies
  have replica (q : Region) : e.replica q = s.replica q := State.replica_congr echo.replicas q
  have form : e.updateArrives x u true = s' :=
    State.updateArrives_own (echo.unit.trans executing) writes ((echo.isSelf x).trans self)
      (Entry.heldBy_iff.2 ⟨l, .running d, (congrArg Entry.state (echo.entry _)).trans held⟩) (by rw [replica]; exact current)
      (by rw [replica]; exact follows)
  obtain ⟨only, -, -⟩ := e.updateAtDirectory_echo x u
  have line : LineOnly (e.echoWritten x u) s' := by
    have echoed := (e.echoWritten x u).updateEchoed_lineOnly u
    show LineOnly _ (if u.closeAfter then v.noticeNoLongerHeld u.region .closeAfterEcho else v)
    split
    · exact echoed.trans (v.noticeNoLongerHeld_lineOnly _ _)
    · exact echoed
  have replicas (q : Region) : s'.replica q = if q = u.region then (s.replica u.region).applied u else s.replica q := by
    rw [line.replica]
    refine (State.replica_setReplica (e.updateAtDirectory x u true) u.region q _).trans ?_
    rw [replica, State.replica_congr only.replicas, replica]
  have station : s'.station = .member := line.station.trans (only.station.trans (echo.station.trans member))
  refine ⟨echo, arrival_own_follows (f := .update u) (deliver := fun own s => s.updateArrives x u own.isSome) powered self good flies
    (State.noneWaits_of_unit executing fun clock last is => ?_) form (by rw [station]; exact nofun) (.inl ?_), ?_⟩
  · simp [is, Progress.writes] at writes
  · refine State.outOfStep_le fun q behind => ?_
    rw [State.behind_of_condition (s := s.advance t)] at behind
    · exact behind
    · rw [replicas]
      split
      next eq => rw [eq]; rfl
      · rfl
  · rw [replicas, if_pos rfl]
    rfl

end OwnUpdate

/-! ## What each echo ends (R172, R173, R176, R184 to R187) -/

section Ends

variable {t : Time} {x : Station} {i : Queued} {rest : List Queued} {run : Running} {l d : Time} {s : State}

theorem State.heldUnlapsed_of_running {r : Region} (self : s.isSelf x = true) (state : (s.entry r).state = .held x l (.running d)) :
    s.heldUnlapsed r = true := by
  simp [State.heldUnlapsed, state, self]

/-- The echo of a WRITE's UPDATE (R176). -/
theorem writeEcho_follows {u : Update} (powered : s.powered = true) (member : s.station = .member) (self : s.isSelf x = true)
    (executing : s.unit = .executing run) (region : run.region = u.region)
    (held : (s.entry u.region).state = .held x l (.running d)) (good : u.goodForm = true) (write : run.progress = .write)
    (flies : s.inFlight .originated (.update u) i rest) (room : s.host.completionQueue.length < 16)
    (current : (s.replica u.region).condition = .current) (follows : u.version = (s.replica u.region).version + 1) :
    ∃ s' e, exec (.updateArrival t x u) s = .next s' ∧ s'.unit = .idle ∧
      s'.host.completionQueue = s.host.completionQueue ++ [e] ∧ e.tag = run.record.tag ∧ e.status = .done ∧
      e.version = u.version ∧ e.count = run.record.length.toNat ∧ e.released = run.record.closeAfter ∧
      (s'.replica u.region).version = u.version := by
  obtain ⟨echo, next, version⟩ := updateEcho_follows (t := t) powered member self flies good executing
    (by rw [write]; trivial) held current follows
  generalize (s.advance t).echoed x = e at echo next version
  obtain ⟨-, unit, host⟩ := e.updateAtDirectory_echo x u
  have ended : (e.echoWritten x u).updateEchoed u = State.endCommand (e.echoWritten x u) run .done (version := u.version)
      (count := run.record.length.toNat) (released := run.record.closeAfter) := by
    have executing' : (e.echoWritten x u).running = some run := State.running_iff.2 (unit.trans (echo.unit.trans executing))
    simp only [State.updateEchoed, executing', region, if_true, write]
  have queue : (e.echoWritten x u).host.completionQueue = s.host.completionQueue :=
    congrArg HostLink.completionQueue (host.trans echo.host)
  rw [State.endCommand_of_room (by rw [queue]; exact room)] at ended
  have idle : ((e.echoWritten x u).updateEchoed u).unit = .idle := by rw [ended]
  have posted : ((e.echoWritten x u).updateEchoed u).host.completionQueue = s.host.completionQueue ++
      [run.completion .done .none u.version run.record.length.toNat 0 false false run.record.closeAfter] := by
    rw [ended]
    exact congrArg (· ++ [_]) queue
  rw [State.noticeNoLongerHeld_of_idle idle, ite_self] at next version
  exact ⟨_, _, next, idle, posted, rfl, rfl, rfl, rfl, rfl, version⟩

/-- The echo of a RENEW (R27, R173). -/
theorem renewEcho_follows (powered : s.powered = true) (member : s.station = .member) (self : s.isSelf x = true)
    (executing : s.unit = .executing run) (held : (s.entry run.region).state = .held x l (.running d))
    (renew : run.progress = .renew) (flies : s.inFlight .originated (.renew run.region) i rest)
    (room : s.host.completionQueue.length < 16) :
    ∃ s' e, exec (.renewArrival t x run.region) s = .next s' ∧ s'.unit = .idle ∧
      s'.host.completionQueue = s.host.completionQueue ++ [e] ∧ e.tag = run.record.tag ∧ e.status = .done ∧
      (s'.entry run.region).state = .held x (max s.now t + s.leaseTime)
        (.running (max s.now t + s.leaseTime - 1000000)) := by
  have echo := State.echoed_echo (s := s.advance t) (x := x) flies
  generalize is : (s.advance t).echoed x = e at echo
  have state : (e.entry run.region).state = .held x l (.running d) := (congrArg Entry.state (echo.entry _)).trans held
  have restarted := State.restartLease_of_held state
  have state' : ((e.restartLease run.region).entry run.region).state =
      .held x (max s.now t + s.leaseTime) (.running (max s.now t + s.leaseTime - 1000000)) := by
    rw [restarted, State.entry_setEntry_self]
    have now : e.now = max s.now t := echo.now
    have lease : e.leaseTime = s.leaseTime := by simp only [State.leaseTime, echo.host]; rfl
    rw [← now, ← lease]
    rfl
  have only := DirectoryOnly.restartLease e run.region
  have queue : (e.restartLease run.region).host.completionQueue = s.host.completionQueue :=
    congrArg HostLink.completionQueue ((State.restartLease_host _ _).trans echo.host)
  have form : e.renewArrives x run.region true = (e.restartLease run.region).endCommand run .done := by
    have yes : e.ownerAnswer run.region x = .yes := State.ownerAnswer_yes (Entry.heldBy_iff.2 ⟨l, .running d, state⟩)
    have executing' : (e.restartLease run.region).running = some run :=
      State.running_iff.2 ((State.restartLease_unit _ _).trans (echo.unit.trans executing))
    have unlapsed := State.heldUnlapsed_of_running ((only.isSelf x).trans ((echo.isSelf x).trans self)) state'
    have atDirectory : e.renewArrives x run.region true = (e.restartLease run.region).renewEchoed run.region := by
      simp only [State.renewArrives, yes, if_true]
    rw [atDirectory]
    simp only [State.renewEchoed, executing', if_true, renew, unlapsed]
  rw [State.endCommand_of_room (by rw [queue]; exact room)] at form
  have idle : (e.renewArrives x run.region true).unit = .idle := by rw [form]
  have posted : (e.renewArrives x run.region true).host.completionQueue = s.host.completionQueue ++
      [run.completion .done .none ((e.restartLease run.region).replica run.region).version run.progress.bytesDone 0 false false
        false] := by
    rw [form]
    exact congrArg (· ++ [_]) queue
  have entry : (e.renewArrives x run.region true).entry run.region = (e.restartLease run.region).entry run.region := by rw [form]; rfl
  have replicas : (e.renewArrives x run.region true).replicas = s.replicas := by
    rw [form]
    exact only.replicas.trans echo.replicas
  have station : (e.renewArrives x run.region true).station = .member := by
    rw [form]
    exact only.station.trans (echo.station.trans member)
  have next := arrival_own_follows (t := t) (f := .renew run.region)
    (deliver := fun own s => s.renewArrives x run.region own.isSome) powered self rfl flies
    (State.noneWaits_of_unit executing fun clock last no => nomatch renew.symm.trans no) (by rw [is]; rfl)
    (fun leaving => nomatch station.symm.trans leaving) (State.inStep_of_replicas replicas)
  exact ⟨_, _, next, idle, posted, rfl, rfl, (congrArg Entry.state entry).trans state'⟩

theorem State.returnLost_transferOnly (s : State) (r : Region) : TransferOnly s (s.returnLost r) := by
  have reset : TransferOnly s (s.setReplica r { s.replica r with attempts := 0 }) := ⟨rfl, rfl, rfl, rfl, rfl, rfl, rfl, rfl, rfl⟩
  exact (reset.trans (State.changeCondition_transferOnly _ r .stale)).ite (.refl s)

/-- A replica's change of condition leaves a CLOSE as it is (R53). -/
theorem State.changeCondition_of_close (executing : s.unit = .executing run) (close : run.progress = .close) (r : Region)
    (c : Condition) :
    (s.changeCondition r c).unit = s.unit ∧ (s.changeCondition r c).host.completionQueue = s.host.completionQueue := by
  by_cases same : (s.replica r).condition = c
  · rw [State.changeCondition_same same]
    exact ⟨rfl, rfl⟩
  · have silent : ((s.recondition r c).addChange r).noticeRegionNotCurrent r = (s.recondition r c).addChange r := by
      have executing' : ((s.recondition r c).addChange r).running = some run := State.running_iff.2 executing
      simp only [State.noticeRegionNotCurrent, executing', close]
    rw [State.changeCondition_eq same, silent, ite_self]
    exact ⟨rfl, rfl⟩

/-- The replica's part of a RELEASE leaves a CLOSE as it is (R67, R94). -/
theorem State.released_of_close (executing : s.unit = .executing run) (close : run.progress = .close) (r : Region) (v : Version) :
    ((s.checkVersion r v).returnLost r).unit = s.unit ∧
      ((s.checkVersion r v).returnLost r).host.completionQueue = s.host.completionQueue := by
  have checked : (s.checkVersion r v).unit = s.unit ∧ (s.checkVersion r v).host.completionQueue = s.host.completionQueue := by
    have gone := State.changeCondition_of_close executing close r .stale
    unfold State.checkVersion
    split
    · exact gone
    · exact ⟨rfl, rfl⟩
  obtain ⟨unit, queue⟩ := checked
  unfold State.returnLost
  split
  · obtain ⟨unit', queue'⟩ := State.changeCondition_of_close (s := (s.checkVersion r v).setReplica r _) (unit.trans executing) close r
      .stale
    exact ⟨unit'.trans unit, queue'.trans queue⟩
  · exact ⟨unit, queue⟩

/-- The echo of a CLOSE's RELEASE (R29, R67, R172). -/
theorem closeEcho_follows {v : Version} (powered : s.powered = true) (member : s.station = .member) (self : s.isSelf x = true)
    (executing : s.unit = .executing run) (held : (s.entry run.region).state = .held x l (.running d)) (few : s.outOfStep < 15)
    (close : run.progress = .close) (flies : s.inFlight .originated (.release run.region v) i rest)
    (room : s.host.completionQueue.length < 16) :
    ∃ s' e, exec (.releaseArrival t x run.region v) s = .next s' ∧ s'.unit = .idle ∧
      s'.host.completionQueue = s.host.completionQueue ++ [e] ∧ e.tag = run.record.tag ∧ e.status = .done ∧
      e.version = v ∧ e.released = true ∧ (s'.entry run.region).state = .settling .released (max s.now t + 300000) ∧
      ((s.replica run.region).condition = .current → (s.replica run.region).version = v → s'.host.changeSet = s.host.changeSet) := by
  have echo := State.echoed_echo (s := s.advance t) (x := x) flies
  generalize is : (s.advance t).echoed x = e at echo
  have state : (e.entry run.region).state = .held x l (.running d) := (congrArg Entry.state (echo.entry _)).trans held
  -- The directory: SETTLING, which a CLOSE does not tell (R7).
  have settledEntry := e.entry_settle run.region run.region .released x false
  have settledOnly : DirectoryOnly e (e.settle run.region .released x false) := (DirectoryOnly.refl e).settle
  obtain ⟨unit, host⟩ := e.settle_silent run.region .released x
  have form : e.releaseArrives x run.region v true =
      (((e.settle run.region .released x false).checkVersion run.region v).returnLost run.region).noticeNoLongerHeld run.region
        (.releaseEcho v) := if_pos (State.ownerAnswer_yes (Entry.heldBy_iff.2 ⟨l, .running d, state⟩))
  generalize e.settle run.region .released x false = w at settledEntry settledOnly unit host form
  have replica (q : Region) : w.replica q = s.replica q :=
    (State.replica_congr settledOnly.replicas q).trans (State.replica_congr echo.replicas q)
  have executing' : w.unit = .executing run := unit.trans (echo.unit.trans executing)
  have cases_ := w.released_cases run.region v
  obtain ⟨unit', queue'⟩ := State.released_of_close executing' close run.region v
  have only : TransferOnly w ((w.checkVersion run.region v).returnLost run.region) :=
    (w.checkVersion_transferOnly run.region v).trans (State.returnLost_transferOnly _ _)
  have others (q : Region) (ne : q ≠ run.region) :
      ((w.checkVersion run.region v).returnLost run.region).replica q = s.replica q := by
    refine Eq.trans ?_ (replica q)
    obtain ⟨-, kept⟩ | ⟨-, -, kept⟩ | ⟨-, -, same⟩ := cases_
    · exact (kept.replica q).trans ((State.replica_returned q).trans (if_neg ne))
    · exact (kept.replica q).trans ((State.replica_outdated q).trans (if_neg ne))
    · rw [same]
  have agreed : (s.replica run.region).condition = .current → (s.replica run.region).version = v →
      (w.checkVersion run.region v).returnLost run.region = w := fun current same => by
    rw [State.checkVersion_of_eq (.inr (by rw [replica]; exact same)),
      State.returnLost_of_ne (by rw [replica, current]; exact nofun)]
  have ended : ((w.checkVersion run.region v).returnLost run.region).noticeNoLongerHeld run.region (.releaseEcho v) =
      ((w.checkVersion run.region v).returnLost run.region).endCommand run .done (version := v) (released := true) := by
    simp only [State.noticeNoLongerHeld, State.running_iff.2 (unit'.trans executing'), if_true, close]
  rw [ended] at form
  generalize (w.checkVersion run.region v).returnLost run.region = w' at form only others agreed unit' queue'
  have queue : w'.host.completionQueue = s.host.completionQueue :=
    queue'.trans (congrArg HostLink.completionQueue (host.trans echo.host))
  have line : LineOnly w' (e.releaseArrives x run.region v true) := form ▸ State.endCommand_lineOnly _ _ _ _ _ _ _ _ _ _
  rw [State.endCommand_of_room (by rw [queue]; exact room)] at form
  have idle : (e.releaseArrives x run.region v true).unit = .idle := by rw [form]
  have posted : (e.releaseArrives x run.region v true).host.completionQueue = s.host.completionQueue ++
      [run.completion .done .none v run.progress.bytesDone 0 false false true] := by
    rw [form]
    exact congrArg (· ++ [_]) queue
  have changes : (e.releaseArrives x run.region v true).host.changeSet = w'.host.changeSet := by rw [form]
  have station : (e.releaseArrives x run.region v true).station = .member :=
    line.station.trans (only.station.trans (settledOnly.station.trans (echo.station.trans member)))
  have next := arrival_own_follows (t := t) (f := .release run.region v)
    (deliver := fun own s => s.releaseArrives x run.region v own.isSome) powered self rfl flies
    (State.noneWaits_of_unit executing fun clock last no => nomatch close.symm.trans no) (by rw [is]; rfl)
    (fun leaving => nomatch station.symm.trans leaving)
    (State.inStep_of_one (r := run.region) few fun q ne => (line.replica q).trans (others q ne))
  refine ⟨_, _, next, idle, posted, rfl, rfl, rfl, rfl, ?_, fun current same => ?_⟩
  · rw [line.entry, only.entry, settledEntry, if_pos rfl]
    exact congrArg (fun n : Time => EntryState.settling .released (n + 300000)) echo.now
  · rw [changes, agreed current same, host, echo.host]
    rfl

/-- The next chunk of a COPY or FILL goes into the originated queue (R184 to R186). -/
theorem State.placeChunk_of_room {source : Option Region} {done : Nat} {disturbed : Bool} (free : s.originatedFree) :
    let len := chunkLength run.record source run.region done
    let start := chunkStart run.record source done len
    (s.placeChunk run source done disturbed).unit = .executing { run with
      progress := .chunk source done (run.record.offset.toNat + start) (run.record.secondOffset.toNat + start) len disturbed } ∧
    (s.placeChunk run source done disturbed).host = s.host ∧
    (s.placeChunk run source done disturbed).liu.originated = s.liu.originated ++
      [{ item := .update run.region (run.record.offset.toNat + start) none
          (run.record.closeAfter && len == run.record.length.toNat - done)
          (match source with
            | some from_ => .replica from_ (run.record.secondOffset.toNat + start) len
            | none => .bytes (List.replicate len run.record.value)), marked := false }] := by
  intro len start
  have placed (item : Item) (other : ∀ r, item ≠ .claim r none) :
      s.place .originated item = s.withLiu fun l => l.setQueue .originated (l.originated ++ [{ item := item, marked := false }]) := by
    rw [State.place_of_room (q := .originated) free.1 free.2, State.append_of_ne other]
    rfl
  unfold State.placeChunk
  dsimp only
  rw [placed _ (by exact nofun)]
  exact ⟨rfl, rfl, rfl⟩

/-- The echo of the last chunk of a COPY or FILL (R187). -/
theorem lastChunk_follows {u : Update} {source : Option Region} {done offset sourceOffset len : Nat} {disturbed : Bool}
    {e : State} (executing : e.unit = .executing run) (region : run.region = u.region)
    (chunk : run.progress = .chunk source done offset sourceOffset len disturbed) (whole : run.record.length.toNat ≤ done + len)
    (room : e.host.completionQueue.length < 16) :
    let v := (e.echoWritten x u).updateEchoed u
    v.unit = .idle ∧ v.host.completionQueue = e.host.completionQueue ++
      [({ run with progress := .chunk source (done + len) offset sourceOffset len disturbed }).completion .done .none u.version
        (done + len) 0 false false run.record.closeAfter] := by
  intro v
  obtain ⟨-, unit, host⟩ := e.updateAtDirectory_echo x u
  have ended : v = State.endCommand (e.echoWritten x u)
      { run with progress := .chunk source (done + len) offset sourceOffset len disturbed } .done (version := u.version)
      (released := run.record.closeAfter) := by
    have executing' : (e.echoWritten x u).running = some run := State.running_iff.2 (unit.trans executing)
    show (e.echoWritten x u).updateEchoed u = _
    simp only [State.updateEchoed, executing', region, if_true, chunk, whole]
  have queue : (e.echoWritten x u).host.completionQueue = e.host.completionQueue := congrArg HostLink.completionQueue host
  rw [ended, State.endCommand_of_room (by rw [queue]; exact room)]
  exact ⟨rfl, congrArg (· ++ [_]) queue⟩

/-- The echo of a chunk that leaves bytes to do (R184). -/
theorem nextChunk_follows {u : Update} {source : Option Region} {done offset sourceOffset len : Nat} {disturbed : Bool}
    {e : State} (executing : e.unit = .executing run) (region : run.region = u.region) (self : e.isSelf x = true)
    (held : (e.entry u.region).state = .held x l (.running d)) (opens : u.closeAfter = false) (unaborted : run.abort = false)
    (chunk : run.progress = .chunk source done offset sourceOffset len disturbed) (some_ : done + len < run.record.length.toNat) :
    (e.echoWritten x u).updateEchoed u =
      (e.echoWritten x u).placeChunk { run with progress := .chunk source (done + len) offset sourceOffset len disturbed } source
        (done + len) disturbed := by
  obtain ⟨only, unit, -⟩ := e.updateAtDirectory_echo x u
  have executing' : (e.echoWritten x u).running = some run := State.running_iff.2 (unit.trans executing)
  have state : ((e.echoWritten x u).entry u.region).state =
      .held x (e.now + e.leaseTime) (.running (e.now + e.leaseTime - 1000000)) := by
    have form : e.updateAtDirectory x u true = e.restartLease u.region := if_neg (by simp [opens])
    show ((e.updateAtDirectory x u true).entry u.region).state = _
    rw [form, State.restartLease_of_held held, State.entry_setEntry_self]
    rfl
  have unlapsed : (e.echoWritten x u).heldUnlapsed run.region = true :=
    region ▸ State.heldUnlapsed_of_running ((only.isSelf x).trans self) state
  have more : ¬ run.record.length.toNat ≤ done + len := Nat.not_le.2 some_
  simp only [State.updateEchoed, executing', region, if_true, chunk, if_neg more, unaborted, Bool.false_eq_true, if_false]
  rw [← region, unlapsed]
  rfl

end Ends

/-- Settles O37. -/
theorem echoesEndTheHolderCommands : Obligations.EchoesEndTheHolderCommands := by
  rintro t x r i rest run l d s powered member self executing rfl held few
  refine ⟨fun u region good write flies room current follows => ?_, fun renew flies room =>
    renewEcho_follows powered member self executing held renew flies room, fun v close flies room =>
    closeEcho_follows powered member self executing held few close flies room, ?_⟩
  · rw [← region] at held current follows ⊢
    exact writeEcho_follows powered member self executing region.symm held good write flies room current follows
  · intro u source done offset sourceOffset len disturbed region good chunk flies current follows
    dsimp only
    rw [← region] at held current follows ⊢
    obtain ⟨echo, next, version⟩ := updateEcho_follows (t := t) powered member self flies good executing (by rw [chunk]; trivial) held
      current follows
    generalize (s.advance t).echoed x = e at echo next version
    have unit : e.unit = .executing run := echo.unit.trans executing
    have queue : e.host.completionQueue = s.host.completionQueue := congrArg HostLink.completionQueue echo.host
    refine ⟨_, next, version, fun whole room => ?_, fun more opens unaborted none room => ?_⟩
    · obtain ⟨idle, posted⟩ := lastChunk_follows (x := x) (u := u) unit region.symm chunk whole (by rw [queue]; exact room)
      rw [State.noticeNoLongerHeld_of_idle idle, ite_self]
      exact ⟨idle, _, posted.trans (congrArg (· ++ [_]) queue), rfl, rfl, rfl, rfl, rfl, rfl⟩
    · have state : (e.entry u.region).state = .held x l (.running d) := (congrArg Entry.state (echo.entry _)).trans held
      rw [nextChunk_follows unit region.symm ((echo.isSelf x).trans self) state opens unaborted chunk more,
        if_neg (by simp [opens])]
      have line : (e.echoWritten x u).liu = e.liu := by
        have form : e.updateAtDirectory x u true = e.restartLease u.region := if_neg (by simp [opens])
        show (e.updateAtDirectory x u true).liu = _
        rw [form, State.restartLease_liu]
      have originated : e.liu.originated = rest.filter fun q => !(q.item.isPresence || q.item.isRenewal) := by
        refine echo.originated.trans ?_
        rw [show (s.advance t).station = .member from member]
        rfl
      have free : (e.echoWritten x u).originatedFree := by
        refine ⟨?_, ?_⟩
        · rw [line, originated]
          exact (List.length_filter_le _ _).trans_lt room
        · rw [line, echo.originatedWaiting]
          exact List.filter_eq_nil_iff.2 fun i mem => nomatch (show i ∈ ([] : List Item) from none ▸ mem)
      obtain ⟨goesOn, host, placed⟩ := State.placeChunk_of_room
        (run := { run with progress := .chunk source (done + len) offset sourceOffset len disturbed }) (source := source)
        (done := done + len) (disturbed := disturbed) free
      refine ⟨?_, goesOn.trans ?_, placed.trans ?_⟩
      · rw [host]
        exact (congrArg HostLink.completionQueue (e.updateAtDirectory_echo x u).2.2).trans queue
      · cases source <;>
          simp [chunkLength_eq, chunkStart, CommandRecord.distance, region]
      · rw [line, originated]
        cases source <;>
          simp [chunkLength_eq, chunkStart, CommandRecord.distance, region]


end Sys2Proof.Machine
end

section
/-! PROOF. Another station's CLAIM (R9, R18): the withdrawal of the own CLAIM that the statement asks for fails in a state whose
reply queue lends a CLAIM to the transmitter. -/

-- One declaration at a time: side by side, the case splits of these proofs want more threads than the memory limit allows.
set_option Elab.async false

namespace Sys2Proof.Machine

/-- A MEMBER whose own CLAIM for region 5 waits in the originated queue, while the transmitter sends from a reply queue that is
empty but for a CLAIM request held for room, and a sync job for station 7 stands before a refresh job. -/
def strayClaim : State :=
  { State.reset with
    powered := true
    directory := Vector.replicate 64 Entry.fresh
    membership := { Membership.reset with station := .member }
    transfer := { Transfer.empty with jobs := [.sync 7 .waiting, .refresh 0 1 .waiting] }
    unit := .executing
      { record :=
          { kind := 1, tag := 0, region := 5, offset := 0, length := 0, flags := 0, mask := 0, secondRegion := 0, secondOffset := 0,
            value := 0, matchMask := 0, data := [] }
        region := 5, abort := false, progress := .openClaimQueued .noWait .none }
    liu := { Liu.reset 0 with
      transmitter := .sending .reply .leave, originated := [{ item := .claim 5 (some 1), marked := false }],
      replyWaiting := [.claim 5 none] }
    host := { HostLink.reset with config := some ⟨3, 0, 0, false, false⟩ } }

/-- Station 7's CLAIM drops its sync job, and the refresh job served next takes the held CLAIM request into the reply queue as
its head: the transmitter now seems to send a CLAIM for the region, and the own one that waits is not withdrawn. -/
theorem strayClaim_stays :
    ∃ s', exec (.claimArrival 0 7 5 1) strayClaim = .next s' ∧ s'.liu.holds .originated (Item.isClaimFor 5) = true :=
  ⟨_, rfl, by decide +kernel⟩

/-- Refutes O31, in its third part: the own CLAIM that waits is not withdrawn in `strayClaim`. -/
theorem not_claimsOfOtherStations : ¬ Obligations.ClaimsOfOtherStations := by
  intro holds
  obtain ⟨-, -, withdrawn, -⟩ := holds
  obtain ⟨s', next, none, -⟩ := withdrawn 0 7 5 1 _ .noWait .none strayClaim rfl (by decide) (by exact nofun) (by decide) rfl rfl rfl
    rfl
  obtain ⟨s'', next', stays⟩ := strayClaim_stays
  obtain rfl : s' = s'' := by
    have same := next.symm.trans next'
    injection same
  exact absurd (stays.symm.trans none) (by exact nofun)

end Sys2Proof.Machine
end

section
/-! SUPPORT. What the blocks leave of the ranking, of the transmitter and of the membership table: one lemma per operation
(R103, R104, R142 to R145). -/

-- One declaration at a time: side by side, the case splits of these proofs want more threads than the memory limit allows.
set_option Elab.async false

namespace Sys2Proof.Machine

/-- The LIU beside its queues and the failures in a row (R142, R145). -/
def Liu.rank (l : Liu) : Liu :=
  { l with reply := [], replyWaiting := [], originated := [], originatedWaiting := [], failures := 0 }

theorem Liu.rank_setQueue (l : Liu) (q : QueueId) (xs : List Queued) : (l.setQueue q xs).rank = l.rank := by cases q <;> rfl

theorem Liu.rank_setWaiting (l : Liu) (q : QueueId) (xs : List Item) : (l.setWaiting q xs).rank = l.rank := by cases q <;> rfl

theorem Liu.rank_markFlight (l : Liu) (q : QueueId) (p : Item → Bool) : (l.markFlight q p).rank = l.rank := by
  unfold Liu.markFlight
  split
  · split
    · exact Liu.rank_setQueue _ _ _
    · rfl
  · rfl

theorem Liu.rank_orphanFlight (l : Liu) (q : QueueId) (p : Item → Bool) : (l.orphanFlight q p).rank = l.rank := by
  unfold Liu.orphanFlight
  split
  · split
    · exact Liu.rank_setQueue _ _ _
    · rfl
  · rfl

theorem Liu.rank_cancel (l : Liu) (q : QueueId) (p : Item → Bool) : (l.cancel q p).rank = l.rank :=
  (Liu.rank_setWaiting _ _ _).trans (Liu.rank_setQueue _ _ _)

/-- The clock, the configuration, the ranking, the transmitter and the line's two counters are as they were; with `p` the
membership entries of the other stations too. -/
structure Ranked (p : Prop) (s t : State) : Prop where
  now : t.now = s.now
  config : t.host.config = s.host.config
  rank : t.liu.rank = s.liu.rank
  frameErrors : t.host.counters.frameErrors = s.host.counters.frameErrors
  txFailures : t.host.counters.txFailures = s.host.counters.txFailures
  members : p → ∀ y, s.isSelf y = false → t.member y = s.member y

/-! ## The echoes at the command unit (R173, R176, R184) -/

namespace CommandOnly

theorem updateEchoed {a s : State} {u : Update} (h : CommandOnly a s) : CommandOnly a (s.updateEchoed u) := by
  unfold State.updateEchoed
  split
  · split
    · split
      · exact h.endCommand
      · exact h.endCommand.ite (h.endCommand.ite (h.endCommand.ite h.placeChunk))
      · exact h
    · exact h
  · exact h

theorem renewEchoed {a s : State} {r : Region} (h : CommandOnly a s) : CommandOnly a (s.renewEchoed r) := by
  unfold State.renewEchoed
  split
  · split
    · split
      · exact h.endCommand
      · exact h
    · exact h
  · exact h

end CommandOnly

namespace Ranked

variable {p : Prop} {a s t : State} {q : QueueId} {i : Item} {r : Region} {x j : Station} {e : Entry} {run : Running} {u : Update}
  {f : PartField} {v : Version} {b : Bool}

theorem refl (s : State) : Ranked p s s := ⟨rfl, rfl, rfl, rfl, rfl, fun _ _ _ => rfl⟩

theorem isSelf (h : Ranked p s t) (y : Station) : t.isSelf y = s.isSelf y := by simp only [State.isSelf, State.self, h.config]

theorem trans (h : Ranked p a s) (g : Ranked p s t) : Ranked p a t :=
  ⟨g.now.trans h.now, g.config.trans h.config, g.rank.trans h.rank, g.frameErrors.trans h.frameErrors,
    g.txFailures.trans h.txFailures, fun ok y other => (g.members ok y ((h.isSelf y).trans other)).trans (h.members ok y other)⟩

theorem weaken (h : Ranked p s t) : Ranked False s t := ⟨h.now, h.config, h.rank, h.frameErrors, h.txFailures, False.elim⟩

theorem rankField {α : Type} (h : Ranked p s t) (g : Liu → α) : g t.liu.rank = g s.liu.rank := congrArg g h.rank

theorem lastSender (h : Ranked p s t) : t.liu.lastSender = s.liu.lastSender := h.rankField Liu.lastSender
theorem fallback (h : Ranked p s t) : t.liu.fallback = s.liu.fallback := h.rankField Liu.fallback
theorem activityEnd (h : Ranked p s t) : t.liu.activityEnd = s.liu.activityEnd := h.rankField Liu.activityEnd
theorem transmitter (h : Ranked p s t) : t.liu.transmitter = s.liu.transmitter := h.rankField Liu.transmitter

theorem branch {c : Prop} {_ : Decidable c} (yes : c → Ranked p a s) (no : ¬ c → Ranked p a t) :
    Ranked p a (if c then s else t) := by
  split
  next h => exact yes h
  next h => exact no h

theorem ite {c : Prop} {_ : Decidable c} (h : Ranked p a s) (g : Ranked p a t) : Ranked p a (if c then s else t) :=
  branch (fun _ => h) fun _ => g

theorem ifSo {c : Prop} {_ : Decidable c} (h : Ranked p a s) (step : Ranked p a s → Ranked p a t) :
    Ranked p a (if c then t else s) := (step h).ite h

theorem foldl {α : Type} {g : State → α → State} {xs : List α} (h : Ranked p a s)
    (step : ∀ {u y}, Ranked p a u → Ranked p a (g u y)) : Ranked p a (xs.foldl g s) := by
  induction xs generalizing s with
  | nil => exact h
  | cons _ _ ih => exact ih (step h)

/-! ### The parts of the station -/

theorem of_command (h : CommandOnly s t) : Ranked p s t := by
  have rank : t.liu.line.rank = s.liu.line.rank := congrArg Liu.rank h.line
  have counters := h.counters
  exact ⟨h.now, h.config, rank, congrArg Counters.frameErrors counters, congrArg Counters.txFailures counters,
    fun _ y _ => h.member y⟩

theorem command (h : Ranked p a s) (g : CommandOnly s t) : Ranked p a t := h.trans (.of_command g)

/-- An operation on one part of the station beside the ranking and the table. -/
theorem part (h : Ranked p a s) (now : t.now = s.now) (config : t.host.config = s.host.config) (liu : t.liu = s.liu)
    (counters : t.host.counters = s.host.counters) (membership : t.membership.table = s.membership.table) : Ranked p a t :=
  h.trans ⟨now, config, congrArg Liu.rank liu, congrArg Counters.frameErrors counters, congrArg Counters.txFailures counters,
    fun _ y _ => by simp only [State.member, membership]⟩

theorem withLiu {g : Liu → Liu} (h : Ranked p a s) (rank : (g s.liu).rank = s.liu.rank := by rfl) : Ranked p a (s.withLiu g) :=
  h.trans ⟨rfl, rfl, rank, rfl, rfl, fun _ _ _ => rfl⟩

theorem withTransfer {g : Transfer → Transfer} (h : Ranked p a s) : Ranked p a (s.withTransfer g) :=
  h.part rfl rfl rfl rfl rfl

theorem withMembership {g : Membership → Membership} (h : Ranked p a s)
    (table : (g s.membership).table = s.membership.table := by rfl) : Ranked p a (s.withMembership g) :=
  h.part rfl rfl rfl rfl table

theorem setEntry (h : Ranked p a s) : Ranked p a (s.setEntry r e) := h.part rfl rfl rfl rfl rfl

theorem setReplica {rep : Replica} (h : Ranked p a s) : Ranked p a (s.setReplica r rep) := h.part rfl rfl rfl rfl rfl

theorem addChange (h : Ranked p a s) : Ranked p a (s.addChange r) := h.part rfl rfl rfl rfl rfl

theorem addChanges {rs : List Region} (h : Ranked p a s) : Ranked p a (s.addChanges rs) := by
  rw [State.addChanges_eq]
  exact h.part rfl rfl rfl rfl rfl

theorem raiseObjectionsWithdrawn (h : Ranked p a s) : Ranked p a s.raiseObjectionsWithdrawn :=
  h.trans ⟨rfl, rfl, rfl, rfl, rfl, fun _ _ _ => rfl⟩

theorem raiseVersionGaps (h : Ranked p a s) : Ranked p a s.raiseVersionGaps :=
  h.trans ⟨rfl, rfl, rfl, rfl, rfl, fun _ _ _ => rfl⟩

theorem raiseForeignUpdates (h : Ranked p a s) : Ranked p a s.raiseForeignUpdates :=
  h.trans ⟨rfl, rfl, rfl, rfl, rfl, fun _ _ _ => rfl⟩

theorem raiseTransfersAbandoned (h : Ranked p a s) : Ranked p a s.raiseTransfersAbandoned :=
  h.trans ⟨rfl, rfl, rfl, rfl, rfl, fun _ _ _ => rfl⟩

theorem setMember_own {m : MemberEntry} (h : Ranked p a s) (own : s.isSelf x = true) : Ranked p a (s.setMember x m) :=
  h.trans ⟨rfl, rfl, rfl, rfl, rfl, fun _ y other => State.member_setMember_ne s m fun is => by simp [is, own] at other⟩

theorem setOwnEntry {m : Presence} (h : Ranked p a s) : Ranked p a (s.setOwnEntry m) := by
  unfold State.setOwnEntry
  split
  · exact h
  next y self => exact h.setMember_own (by simp [State.isSelf, self])

/-! ### The queues (R154 to R157) -/

theorem cancel {g : Item → Bool} (h : Ranked p a s) : Ranked p a (s.cancel q g) := h.withLiu (Liu.rank_cancel _ _ _)

theorem append (h : Ranked p a s) : Ranked p a (s.append q i) := by
  unfold State.append
  split
  · exact h.trans ⟨rfl, rfl, Liu.rank_setQueue _ _ _, rfl, rfl, fun _ _ _ => rfl⟩
  · exact h.withLiu (Liu.rank_setQueue _ _ _)

theorem setWaiting {xs : List Item} (h : Ranked p a s) : Ranked p a (s.withLiu fun l => l.setWaiting q xs) :=
  h.withLiu (Liu.rank_setWaiting _ _ _)

theorem placeWaiting (h : Ranked p a s) : Ranked p a (s.placeWaiting q) := by
  unfold State.placeWaiting
  split
  · exact h
  · exact h.setWaiting.append.ite h

theorem placeAllWaiting (h : Ranked p a s) : Ranked p a (s.placeAllWaiting q) := h.foldl fun g => g.placeWaiting

theorem place (h : Ranked p a s) : Ranked p a (s.place q i) := h.placeAllWaiting.append.ite h.placeAllWaiting.setWaiting

theorem placeObject (h : Ranked p a s) : Ranked p a (s.placeObject i) :=
  h.placeAllWaiting.append.ite h.placeAllWaiting.raiseObjectionsWithdrawn

theorem settleWaiting (h : Ranked p a s) : Ranked p a s.settleWaiting := h.placeAllWaiting.placeAllWaiting

theorem withdrawQueue {g : Item → Bool} (h : Ranked p a s) : Ranked p a (s.withdrawQueue q g) :=
  h.withLiu ((Liu.rank_markFlight _ _ _).trans (Liu.rank_cancel _ _ _))

theorem withdrawQueues (h : Ranked p a s) : Ranked p a s.withdrawQueues := h.withdrawQueue.withdrawQueue

theorem dropHead (h : Ranked p a s) : Ranked p a (s.dropHead q) := h.withLiu (Liu.rank_setQueue _ _ _)

/-! ### The directory and the replicas (R7, R20 to R29, R52 to R70) -/

theorem changeEntry {tell : Bool} (h : Ranked p a s) : Ranked p a (s.changeEntry r e tell) := h.setEntry.addChange.ite h.setEntry

theorem tellEntry (h : Ranked p a s) : Ranked p a (s.tellEntry r e) := h.setEntry.addChange

theorem settle {why : SettleReason} {tell : Bool} (h : Ranked p a s) : Ranked p a (s.settle r why x tell) :=
  h.changeEntry.cancel.ite h.changeEntry

theorem restartLease (h : Ranked p a s) : Ranked p a (s.restartLease r) := by
  unfold State.restartLease
  split
  · exact h.setEntry
  · exact h

theorem changeCondition {c : Condition} (h : Ranked p a s) : Ranked p a (s.changeCondition r c) := by
  by_cases same : (s.replica r).condition = c
  · rw [State.changeCondition_same same]
    exact h
  · have changed : Ranked p a ((s.recondition r c).addChange r) := h.setReplica.withTransfer.addChange
    rw [State.changeCondition_eq same]
    exact (changed.command (CommandOnly.refl _).noticeRegionNotCurrent).ite changed

theorem versionGap (h : Ranked p a s) : Ranked p a (s.versionGap r) := h.changeCondition.raiseVersionGaps

theorem checkVersion (h : Ranked p a s) : Ranked p a (s.checkVersion r v) := h.versionGap.ite h

theorem returnLost (h : Ranked p a s) : Ranked p a (s.returnLost r) := h.setReplica.changeCondition.ite h

theorem abandonReception (h : Ranked p a s) : Ranked p a s.abandonReception := by
  unfold State.abandonReception
  split
  · exact h
  · dsimp only
    split
    · exact h.withTransfer.raiseTransfersAbandoned.withTransfer
    · exact h.withTransfer.raiseTransfersAbandoned

theorem keepForCatchUp (h : Ranked p a s) : Ranked p a (s.keepForCatchUp x u) := by
  unfold State.keepForCatchUp
  split
  · exact h
  · exact h.withTransfer.ite h.abandonReception

theorem updateAtCurrent (h : Ranked p a s) : Ranked p a (s.updateAtCurrent x u b) := by
  have applied : Ranked p a (s.setReplica u.region ((s.replica u.region).applied u)) := h.setReplica
  have told : Ranked p a (if b then s.setReplica u.region ((s.replica u.region).applied u) else
      (s.setReplica u.region ((s.replica u.region).applied u)).addChange u.region) := applied.ite applied.addChange
  exact (told.command (CommandOnly.refl _).noticeUpdateApplied).ite h.versionGap

theorem updateAtReplica {answer : OwnerAnswer} (h : Ranked p a s) : Ranked p a (s.updateAtReplica answer x u b) := by
  cases answer with
  | unknown => exact h
  | no => exact raiseForeignUpdates (h.changeCondition.ite h)
  | yes => exact h.updateAtCurrent.ite (h.keepForCatchUp.ite (h.returnLost.ite h))

theorem updateAtDirectory (h : Ranked p a s) : Ranked p a (s.updateAtDirectory x u b) := h.restartLease.settle.ite h.restartLease

theorem updateArrives (h : Ranked p a s) : Ranked p a (s.updateArrives x u b) := by
  have directory : Ranked p a (if s.ownerAnswer u.region x = .yes then s.updateAtDirectory x u b else s) :=
    h.updateAtDirectory.ite h
  exact ifSo (ifSo directory.updateAtReplica fun g => g.command (CommandOnly.refl _).updateEchoed) fun g =>
    g.command (CommandOnly.refl _).noticeNoLongerHeld

theorem renewArrives (h : Ranked p a s) : Ranked p a (s.renewArrives x r b) := by
  unfold State.renewArrives
  refine ifSo ?_ fun g => g.command (CommandOnly.refl _).renewEchoed
  split
  · exact h.restartLease
  · exact h.raiseForeignUpdates
  · exact h

theorem releaseArrives (h : Ranked p a s) : Ranked p a (s.releaseArrives x r v b) :=
  (h.settle.checkVersion.returnLost.ifSo fun g => g.command (CommandOnly.refl _).noticeNoLongerHeld).ite h

theorem dropOverheard {c : Claim} (h : Ranked p a s) : Ranked p a (s.dropOverheard r c) := h.setEntry.ite h

theorem objectArrives {c : Claim} {why : ObjectReason} (h : Ranked p a s) : Ranked p a (s.objectArrives c r why x v) := by
  have heard : Ranked p a ((s.cancel .reply (Item.isObjectTo c)).dropOverheard r c) := h.cancel.dropOverheard
  refine ite (ifSo ?_ fun g => g.command (CommandOnly.refl _).noticeObjected) heard
  cases why with
  | held | settling => exact heard.tellEntry.checkVersion
  | claimed | budget => exact heard.tellEntry

/-! ### CLAIM and PRESENCE (R10 to R18, R41, R109) -/

theorem noteOverheard {c : Claim} (h : Ranked p a s) : Ranked p a (s.noteOverheard r c) := h.ite h.setEntry

theorem claimAtDirectory {c : Claim} (h : Ranked p a s) : Ranked p a (s.claimAtDirectory c r b) := by
  have objected : Ranked p a (if s.objectsTo c.station r then s.placeObject (.object c r false s.now) else s) :=
    h.placeObject.ite h
  unfold State.claimAtDirectory
  dsimp only
  split
  · exact h
  · exact h.changeEntry
  · exact objected
  · exact objected.noteOverheard
  · exact objected.noteOverheard

theorem withBudget {es : List BudgetEntry} (h : Ranked p a s) : Ranked p a { s with budget := es } := h.part rfl rfl rfl rfl rfl

theorem withFreeCount {n : Nat} (h : Ranked p a s) : Ranked p a { s with freeCount := n } := h.part rfl rfl rfl rfl rfl

theorem claimAtBudget {c : Claim} (h : Ranked p a s) : Ranked p a (s.claimAtBudget c r) :=
  (h.withBudget.ite (h.withBudget.placeObject.ite h.withBudget)).ite h

theorem claimAtBlocks {c : Claim} (h : Ranked p a s) : Ranked p a (s.claimAtBlocks c r b) :=
  (h.withFreeCount.claimAtBudget.claimAtDirectory.ite h.withFreeCount.claimAtDirectory.claimAtBudget).ite
    h.claimAtDirectory.claimAtBudget

theorem claimArrives {n : ClaimNumber} (h : Ranked p a s) : Ranked p a (s.claimArrives x r n b) := by
  have blocks : Ranked p a (s.claimAtBlocks { station := x, number := n } r b) := h.claimAtBlocks
  exact ((blocks.command (CommandOnly.refl _).noticeClaimPending).ite (blocks.command (CommandOnly.refl _).noticeContended)).ite
    ((blocks.cancel.command (CommandOnly.refl _).noticeContended).ite blocks)

theorem presenceCheck {g : Frame} (h : Ranked p a s) : Ranked p a (s.presenceCheck x g) := (h.foldl fun k => k.settle).ite h

end Ranked

end Sys2Proof.Machine
end

section
/-! SUPPORT. What the transfer unit, the membership controller and the conclusion of an event leave of the ranking and of the
membership table (R72 to R137). -/

-- One declaration at a time: side by side, the case splits of these proofs want more threads than the memory limit allows.
set_option Elab.async false

namespace Sys2Proof.Machine.Ranked

variable {p : Prop} {a s t : State} {q : QueueId} {i : Item} {r : Region} {x j : Station} {e : Entry} {f : PartField} {v : Version}
  {b : Bool}

/-! ### The transfer unit (R72 to R95) -/

theorem startRefresh (h : Ranked p a s) : Ranked p a (s.startRefresh r x) := place (h.withTransfer)

theorem mapJobsPlace {g : Job → Job} (h : Ranked p a s) : Ranked p a ((s.mapJobs g).place .reply i) := place (h.withTransfer)

theorem syncGoOn {n : Nat} (h : Ranked p a s) : Ranked p a (s.syncGoOn j n) := by
  unfold State.syncGoOn
  split <;> exact h.mapJobsPlace

theorem serveNext (h : Ranked p a s) : Ranked p a s.serveNext := by
  refine h.ite ?_
  split
  · exact h.startRefresh
  · exact h.syncGoOn
  · exact h.mapJobsPlace
  · exact h

theorem endJobs {g : Job → Bool} (h : Ranked p a s) : Ranked p a (s.endJobs g) := serveNext h.withTransfer

theorem dropFrames {g : Item → Bool} (h : Ranked p a s) : Ranked p a (s.dropFrames g) :=
  h.withLiu ((Liu.rank_orphanFlight _ _ _).trans (Liu.rank_cancel _ _ _))

theorem dropJobs {g : Job → Bool} {k : Item → Bool} (h : Ranked p a s) : Ranked p a (s.dropJobs g k) := h.dropFrames.endJobs

theorem afterRegion {n : Nat} (h : Ranked p a s) : Ranked p a (s.afterRegion j n) := by
  unfold State.afterRegion
  split
  · exact startRefresh h.withTransfer
  · exact h.syncGoOn

theorem refreshPartEchoed (h : Ranked p a s) : Ranked p a (s.refreshPartEchoed f) := (h.endJobs.ite h.mapJobsPlace).ite h

theorem snapPartEchoed (h : Ranked p a s) : Ranked p a (s.snapPartEchoed f) := (h.afterRegion.ite h.mapJobsPlace).ite h

theorem dirEchoed {g : Group} (h : Ranked p a s) : Ranked p a (s.dirEchoed j g) := (h.syncGoOn.ite h.mapJobsPlace).ite h

theorem syncEndEchoed (h : Ranked p a s) : Ranked p a (s.syncEndEchoed j) := h.endJobs.ite h

theorem suppressRefresh (h : Ranked p a s) : Ranked p a (s.suppressRefresh f) := h.dropJobs.ite h

theorem suppressSync (h : Ranked p a s) : Ranked p a (s.suppressSync j) := h.dropJobs.ite h

theorem dropSync (h : Ranked p a s) : Ranked p a (s.dropSync j) := h.dropJobs.ite h

theorem dropJobsFor (h : Ranked p a s) : Ranked p a (s.dropJobsFor x) := h.dropJobs.ite h

theorem refreshRequested (h : Ranked p a s) : Ranked p a (s.refreshRequested r x) := (serveNext h.withTransfer).ite h

theorem syncRequested (h : Ranked p a s) : Ranked p a (s.syncRequested j) := (serveNext h.withTransfer).ite h

theorem markFlight {g : Item → Bool} (h : Ranked p a s) : Ranked p a (s.withLiu fun l => l.markFlight q g) :=
  h.withLiu (Liu.rank_markFlight _ _ _)

theorem emptyJobs (h : Ranked p a s) : Ranked p a s.emptyJobs := markFlight (dropFrames h.withTransfer)

theorem stopRepair (h : Ranked p a s) : Ranked p a s.stopRepair := h.withTransfer

theorem emptyTransfer (h : Ranked p a s) : Ranked p a s.emptyTransfer := stopRepair (h.emptyJobs.withTransfer)

theorem openRefresh (h : Ranked p a s) : Ranked p a (s.openRefresh x f) :=
  (cancel (withTransfer (h.withTransfer))).ite h

theorem openSnap (h : Ranked p a s) : Ranked p a (s.openSnap x f) := ite (withTransfer h) h

theorem install {rec : Reception} {m : Memory} (h : Ranked p a s) : Ranked p a (s.install rec m) :=
  h.withTransfer.setReplica.changeCondition.addChange

theorem replayCatchUp {es : List CatchUp} (h : Ranked p a s) : Ranked p a (s.replayCatchUp r v es) := by
  induction es generalizing s with
  | nil => exact h
  | cons e rest ih => exact (ih h).ite ((ih h.setReplica.addChange).ite h.versionGap)

theorem partAtOpen {rec : Reception} {kind : TransferKind} (h : Ranked p a s) : Ranked p a (s.partAtOpen rec kind x f).1 := by
  unfold State.partAtOpen
  split
  · split
    · dsimp only
      split
      · exact h.install
      · exact withTransfer h (g := fun x => { x with reception := _ })
    · exact h.abandonReception
  · exact h

theorem partReceived {kind : TransferKind} (h : Ranked p a s) : Ranked p a (s.partReceived kind x f).1 := by
  unfold State.partReceived
  split
  · split
    · exact h.partAtOpen
    · exact h
  · split
    · split
      · exact h.openRefresh
      · exact h.openSnap
    · exact h

theorem receivePart {kind : TransferKind} (h : Ranked p a s) : Ranked p a (s.receivePart kind x f).1 :=
  h.partReceived.replayCatchUp

theorem refreshReqEchoed (h : Ranked p a s) : Ranked p a s.refreshReqEchoed := h.withTransfer.ite h

/-! ### The membership controller (R98 to R125) -/

theorem withDirectory {d : Vector Entry 64} (h : Ranked p a s) : Ranked p a { s with directory := d } :=
  h.part rfl rfl rfl rfl rfl

theorem resetDirectory (h : Ranked p a s) : Ranked p a (s.resetDirectory e) := addChanges (withDirectory h.cancel)

theorem unsyncReplicas (h : Ranked p a s) : Ranked p a s.unsyncReplicas := by
  have written (v : Vector Replica 64) (rs : List Region) : Ranked p a (State.addChanges { s with replicas := v } rs) :=
    addChanges (h.part rfl rfl rfl rfl rfl)
  unfold State.unsyncReplicas
  dsimp only
  split
  · exact ((written _ _).command (CommandOnly.refl _).noticeRegionNotCurrent).ite (written _ _)
  · exact written _ _

theorem clearAttempts (h : Ranked p a s) : Ranked p a s.clearAttempts := h.part rfl rfl rfl rfl rfl

theorem setStation {st : StationState} (h : Ranked p a s) : Ranked p a (s.setStation st) :=
  part h.withMembership rfl rfl rfl rfl rfl

theorem noticeLeftMember (h : Ranked p a s) : Ranked p a s.noticeLeftMember := h.command (CommandOnly.noticeLeftMember s).1

theorem enterListening (h : Ranked p a s) : Ranked p a s.enterListening :=
  setStation (withLiu (withMembership h.setOwnEntry))

theorem failJoining (h : Ranked p a s) : Ranked p a s.failJoining :=
  enterListening (withMembership (withdrawQueues (clearAttempts (emptyTransfer h.resetDirectory))))

theorem placeAttempt (h : Ranked p a s) : Ranked p a s.placeAttempt := place (cancel h.withMembership)

theorem enterJoining (h : Ranked p a s) : Ranked p a s.enterJoining := by
  have left : Ranked p a (if s.station = .leaving then s.noticeLeftMember else s) := h.noticeLeftMember.ite h
  have queued {l : Liu} : ((l.cancel .originated Item.isPresence).markFlight .originated Item.isPresence).rank = l.rank :=
    (Liu.rank_markFlight _ _ _).trans (Liu.rank_cancel _ _ _)
  exact placeAttempt (setStation (emptyTransfer (unsyncReplicas (resetDirectory
    (withLiu (withMembership left.setOwnEntry) queued)))))

theorem staleUnsynced (h : Ranked p a s) : Ranked p a s.staleUnsynced := h.foldl fun g => g.changeCondition

theorem joined (h : Ranked p a s) : Ranked p a s.joined := setStation (withMembership h.staleUnsynced.setOwnEntry)

theorem enterLeaving {cause : LeaveCause} (h : Ranked p a s) : Ranked p a (s.enterLeaving cause) :=
  setStation (foldl (withMembership (withTransfer (withdrawQueue h.noticeLeftMember))) fun g => g.place)

theorem joinFails (h : Ranked p a s) : Ranked p a (s.joinFails b) := by
  unfold State.joinFails
  split
  · exact h
  · exact h.withMembership.placeAttempt.ite h.failJoining

theorem departRegion {why : SettleReason} (h : Ranked p a s) : Ranked p a (s.departRegion x why r) := by
  unfold State.departRegion
  refine ifSo ?_ fun g => g.setEntry
  split
  · exact h.settle.ite h
  · exact h.changeEntry.ite h
  · exact h

theorem stationGone {why : SettleReason} (h : Ranked p a s) : Ranked p a (s.stationGone x why) := by
  have departed : Ranked p a (allRegions.foldl (State.departRegion x why) s) := h.foldl fun g => g.departRegion
  rw [State.stationGone_eq]
  generalize allRegions.foldl (State.departRegion x why) s = w at departed
  have ended : Ranked p a ((w.cancel .reply (Item.isObjectToStation x)).endTransfersWith x) :=
    departed.cancel.dropJobsFor.abandonReception.ite departed.cancel.dropJobsFor
  exact ended.joinFails.ite ended

/-! ### The conclusion of every event (R54, R112, R170) -/

theorem endReleases (h : Ranked p a s) : Ranked p a s.endReleases := by
  refine ite ?_ h
  split
  · exact h.enterJoining
  · exact h.place
  · exact h.place

theorem concludeFrom {before : State} {n : Nat} (h : Ranked p a s) : Ranked p a (s.concludeFrom before n) := by
  have requested : Ranked p a (s.requestResync before n) := (enterLeaving h.withMembership).ite h
  exact endReleases (requested.command (CommandOnly.refl _).retryOpen)

theorem conclude {before : State} (h : Ranked p a s) : Ranked p a (s.conclude before) := h.concludeFrom

/-! ### The line left (R98, R117, R120) -/

theorem leaveLine (h : Ranked False a s) : Ranked False a s.leaveLine := by
  have left : Ranked False a (if s.station.participates then s.noticeLeftMember else s) := h.noticeLeftMember.ite h
  have cleared {u : State} (g : Ranked False a u) : Ranked False a u.clearTable := g.trans ⟨rfl, rfl, rfl, rfl, rfl, False.elim⟩
  have emptied : Ranked False a ((((if s.station.participates then s.noticeLeftMember else s).clearTable.resetDirectory
      Entry.unknown).unsyncReplicas).emptyTransfer).withdrawQueues := (cleared left).resetDirectory.unsyncReplicas.emptyTransfer.withdrawQueues
  have settled {u : State} (g : Ranked False a u) : Ranked False a ((State.withMembership { u with budget := [] } fun m =>
      { m with presenceTimer := none, join := none }).withLiu fun l => { l with failures := 0 }) :=
    withLiu (withMembership g.withBudget)
  exact settled emptied

theorem enterIsolated (h : Ranked False a s) : Ranked False a s.enterIsolated := setStation (withMembership h.leaveLine)

theorem enterDetached (h : Ranked False a s) : Ranked False a s.enterDetached := setStation (withMembership h.leaveLine)

theorem duplicateNumber (h : Ranked False a s) : Ranked False a s.duplicateNumber := (enterDetached h.withMembership).ite h

/-! ### Joining (R122 to R136) -/

theorem restartGap (h : Ranked p a s) : Ranked p a (s.restartGap x j) := h.withMembership.ite h

theorem jobEchoed {y : Queued} {goOn : State → State} (h : Ranked p a s) (step : Ranked p a s → Ranked p a (goOn s)) :
    Ranked p a (s.jobEchoed y goOn) := h.ite (step h)

theorem syncEchoed {y : Queued} {goOn : State → State} (h : Ranked p a s) (step : Ranked p a s → Ranked p a (goOn s)) :
    Ranked p a (s.syncEchoed y x j goOn) := (h.jobEchoed step).restartGap

theorem joinReqEchoed (h : Ranked p a s) : Ranked p a (s.joinReqEchoed i) := h.ite h.withMembership

theorem joinRequested (h : Ranked p a s) : Ranked p a (s.joinRequested j) := h.joinFails.ite h.syncRequested

theorem installEntry {d : DirField} (h : Ranked p a s) : Ranked p a (s.installEntry r d) := h.changeEntry.checkVersion

theorem installGroup {g : Group} {es : List DirField} (h : Ranked p a s) : Ranked p a (s.installGroup g es) :=
  h.foldl fun k => k.installEntry

theorem dirReceived {g : Group} {es : List DirField} (h : Ranked p a s) : Ranked p a (s.dirReceived x g es) :=
  (installGroup h.withMembership).ite ((installGroup h.withMembership).ite h)

theorem dirArrives {g : Group} {es : List DirField} (h : Ranked p a s) : Ranked p a (s.dirArrives x j g es) :=
  h.suppressSync.restartGap.ifSo dirReceived

theorem syncEndArrives (h : Ranked p a s) : Ranked p a (s.syncEndArrives x j) :=
  h.suppressSync.restartGap.ifSo fun k => k.abandonReception.joined.ite k.abandonReception.joinFails

theorem leaveEchoed (h : Ranked False a s) : Ranked False a s.leaveEchoed := h.enterDetached.ite h

theorem leaveArrives (h : Ranked p a s) : Ranked p a (s.leaveArrives x) := h.stationGone.ite h

end Sys2Proof.Machine.Ranked
end

section
/-! PROOF. Every arrival: the ranking, the membership table, and the frame with this station's own number (R104, R107, R119,
R120, R139, R142, R143). -/

-- One declaration at a time: side by side, the case splits of these proofs want more threads than the memory limit allows.
set_option Elab.async false

namespace Sys2Proof.Machine

/-! ## The line's failures (R143, R151, R152) -/

theorem CommandOnly.commandEndWithoutArrival {a s : State} {run : Running} (h : CommandOnly a s) :
    CommandOnly a (s.commandEndWithoutArrival run) := by
  unfold State.commandEndWithoutArrival
  split
  · exact h.cancelThenEnd.ite h
  · exact h.cancelThenEnd.ite h
  · exact h.cancelThenEnd.ite (h.cancelThenEnd.ite h)
  · exact h.cancelThenEnd.ite (h.cancelThenEnd.ite h)
  · exact h.cancelThenEnd.ite (h.cancelThenEnd.ite h)
  · exact h
  · exact h
  · exact h

namespace Ranked

variable {p : Prop} {a s : State} {q : QueueId} {item : Option Item} {x : Station}

theorem keepOrWithdraw (h : Ranked p a s) : Ranked p a (s.keepOrWithdraw q) := by
  unfold State.keepOrWithdraw
  split
  · exact h.dropHead.ite (h.dropHead.raiseObjectionsWithdrawn.ite h)
  · exact h

theorem reportEnd (h : Ranked p a s) : Ranked p a (s.reportEnd item) := by
  unfold State.reportEnd
  split
  · exact (h.command (CommandOnly.refl _).commandEndWithoutArrival).ite h
  · exact h

theorem isolateAtLimit (h : Ranked False a s) : Ranked False a s.isolateAtLimit := h.enterIsolated.ite h

/-- After a transmit failure is counted, with the transmitter as `after` (R151, R152). -/
theorem transmitFailure (s : State) (q : QueueId) (after : Transmitter) :
    Ranked False (s.raiseTxFailures.withLiu fun l => { l with transmitter := after, failures := l.failures + 1 })
      (s.transmitFailure q after) := by
  have kept : Ranked False _ ((s.raiseTxFailures.withLiu fun l =>
    { l with transmitter := after, failures := l.failures + 1 }).keepOrWithdraw q) := keepOrWithdraw (refl _)
  exact (kept.withFreeCount.reportEnd.isolateAtLimit.ite kept.withFreeCount.isolateAtLimit.reportEnd).ite kept.reportEnd

/-- The membership controller at an echo (R103, R108). -/
theorem ownHeard (h : Ranked False a s) : Ranked False a (s.ownHeard x) := by
  have noted : Ranked False a (s.ownNoted x) := by
    have written : Ranked False a (s.setMember x { s.member x with lastHeard := some s.now }) :=
      h.trans ⟨rfl, rfl, rfl, rfl, rfl, False.elim⟩
    exact h.ite written
  rw [State.ownHeard_eq]
  split
  · exact cancel noted.withMembership
  · exact cancel noted.withMembership
  · exact cancel noted.withMembership
  all_goals exact noted

end Ranked

/-! ## The rows of the arrivals (R142) -/

/-- The row of an arrival keeps the ranking: one that delivers to the blocks, or that of a part. -/
def RowRanked (c : Instr) (x : Station) (f : Frame) : Prop :=
  (∃ t deliver, (∀ s, exec c s = arrival t x f deliver s) ∧ (∀ own s, Ranked False s (deliver own s)) ∧
      ∀ s, Ranked True s (deliver none s)) ∨
    ∃ t kind p echoed suppress, (∀ s, exec c s = partArrival t x f kind p echoed suppress s) ∧
      (∀ i s, Ranked False s (echoed i s)) ∧ ∀ s, Ranked True s (suppress s)

theorem rowRanked_of_arrival {c : Instr} {t : Time} {x : Station} {f : Frame} (deliver : Option Queued → State → State)
    (row : ∀ s, exec c s = arrival t x f deliver s) (own : ∀ i s, Ranked False s (deliver (some i) s))
    (other : ∀ s, Ranked True s (deliver none s)) : RowRanked c x f :=
  .inl ⟨t, deliver, row, fun i s => by
    cases i with
    | none => exact (other s).weaken
    | some i => exact own i s, other⟩

theorem rowRanked_of_part {c : Instr} {t : Time} {x : Station} {f : Frame} {kind : TransferKind} {p : PartField}
    (echoed : Queued → State → State) (suppress : State → State) (row : ∀ s, exec c s = partArrival t x f kind p echoed suppress s)
    (own : ∀ i s, Ranked False s (echoed i s)) (other : ∀ s, Ranked True s (suppress s)) : RowRanked c x f :=
  .inr ⟨t, kind, p, echoed, suppress, row, own, other⟩

section Rows

variable {t : Time} {x : Station} {r : Region}

theorem rowRanked_claim {n : ClaimNumber} : RowRanked (.claimArrival t x r n) x (.claim r n) :=
  rowRanked_of_arrival (fun own s => s.claimArrives x r n own.isSome) (fun _ => rfl) (fun _ s => (Ranked.refl s).claimArrives)
    fun s => (Ranked.refl s).claimArrives

theorem rowRanked_object {c : Claim} {why : ObjectReason} {owner : Station} {v : Version} :
    RowRanked (.objectArrival t x c r why owner v) x (.object c r why owner v) :=
  rowRanked_of_arrival (fun _ s => s.objectArrives c r why owner v) (fun _ => rfl) (fun _ s => (Ranked.refl s).objectArrives)
    fun s => (Ranked.refl s).objectArrives

theorem rowRanked_update {u : Update} : RowRanked (.updateArrival t x u) x (.update u) :=
  rowRanked_of_arrival (fun own s => s.updateArrives x u own.isSome) (fun _ => rfl) (fun _ s => (Ranked.refl s).updateArrives)
    fun s => (Ranked.refl s).updateArrives

theorem rowRanked_renew : RowRanked (.renewArrival t x r) x (.renew r) :=
  rowRanked_of_arrival (fun own s => s.renewArrives x r own.isSome) (fun _ => rfl) (fun _ s => (Ranked.refl s).renewArrives)
    fun s => (Ranked.refl s).renewArrives

theorem rowRanked_release {v : Version} : RowRanked (.releaseArrival t x r v) x (.release r v) :=
  rowRanked_of_arrival (fun own s => s.releaseArrives x r v own.isSome) (fun _ => rfl) (fun _ s => (Ranked.refl s).releaseArrives)
    fun s => (Ranked.refl s).releaseArrives

theorem rowRanked_presence {st : PresenceState} {held : Byte} : RowRanked (.presenceArrival t x st held) x (.presence st held) :=
  rowRanked_of_arrival
    (fun own s => if own.isNone && held = 0 then s.presenceCheck x (.presence st held) else s) (fun _ => rfl)
    (fun _ s => (Ranked.refl s).presenceCheck.ite (Ranked.refl s)) fun s => (Ranked.refl s).presenceCheck.ite (Ranked.refl s)

theorem rowRanked_refreshReq : RowRanked (.refreshReqArrival t x r) x (.refreshReq r) :=
  rowRanked_of_arrival (fun own s => if own.isSome then s.refreshReqEchoed else s.refreshRequested r x) (fun _ => rfl)
    (fun _ s => (Ranked.refl s).refreshReqEchoed) fun s => (Ranked.refl s).refreshRequested

theorem rowRanked_refreshData {p : PartField} : RowRanked (.refreshDataArrival t x p) x (.refreshData p) :=
  rowRanked_of_part (fun i s => s.jobEchoed i fun s => s.refreshPartEchoed p) (fun s => s.suppressRefresh p) (fun _ => rfl)
    (fun _ s => (Ranked.refl s).jobEchoed fun h => h.refreshPartEchoed) fun s => (Ranked.refl s).suppressRefresh

theorem rowRanked_joinReq : RowRanked (.joinReqArrival t x) x .joinReq :=
  rowRanked_of_arrival _ (fun _ => rfl) (fun _ s => (Ranked.refl s).joinReqEchoed) fun s => (Ranked.refl s).joinRequested

theorem rowRanked_dir {j : Station} {g : Group} {es : List DirField} : RowRanked (.dirArrival t x j g es) x (.dir j g es) :=
  rowRanked_of_arrival _ (fun _ => rfl) (fun _ s => (Ranked.refl s).syncEchoed Ranked.dirEchoed)
    fun s => (Ranked.refl s).dirArrives

theorem rowRanked_snap {p : PartField} : RowRanked (.snapArrival t x p) x (.snap p) :=
  rowRanked_of_part (fun i s => s.syncEchoed i x p.peer fun s => s.snapPartEchoed p)
    (fun s => (s.suppressSync p.peer).restartGap x p.peer) (fun _ => rfl)
    (fun _ s => (Ranked.refl s).syncEchoed fun h => h.snapPartEchoed) fun s => (Ranked.refl s).suppressSync.restartGap

theorem rowRanked_syncEnd {j : Station} : RowRanked (.syncEndArrival t x j) x (.syncEnd j) :=
  rowRanked_of_arrival _ (fun _ => rfl) (fun _ s => (Ranked.refl s).syncEchoed Ranked.syncEndEchoed)
    fun s => (Ranked.refl s).syncEndArrives

theorem rowRanked_leave : RowRanked (.leaveArrival t x) x .leave :=
  rowRanked_of_arrival (fun own s => if own.isSome then s.leaveEchoed else s.leaveArrives x) (fun _ => rfl)
    (fun _ s => (Ranked.refl s).leaveEchoed) fun s => (Ranked.refl s).leaveArrives

end Rows

theorem rowRanked_of_arrivingFrame {c : Instr} {x : Station} {f : Frame} (is : c.arrivingFrame = some (x, f)) :
    RowRanked c x f := by
  cases c with
  | claimArrival =>
    obtain ⟨rfl, rfl⟩ := Prod.mk.inj (Option.some.inj is)
    exact rowRanked_claim
  | objectArrival =>
    obtain ⟨rfl, rfl⟩ := Prod.mk.inj (Option.some.inj is)
    exact rowRanked_object
  | updateArrival =>
    obtain ⟨rfl, rfl⟩ := Prod.mk.inj (Option.some.inj is)
    exact rowRanked_update
  | renewArrival =>
    obtain ⟨rfl, rfl⟩ := Prod.mk.inj (Option.some.inj is)
    exact rowRanked_renew
  | releaseArrival =>
    obtain ⟨rfl, rfl⟩ := Prod.mk.inj (Option.some.inj is)
    exact rowRanked_release
  | presenceArrival =>
    obtain ⟨rfl, rfl⟩ := Prod.mk.inj (Option.some.inj is)
    exact rowRanked_presence
  | refreshReqArrival =>
    obtain ⟨rfl, rfl⟩ := Prod.mk.inj (Option.some.inj is)
    exact rowRanked_refreshReq
  | refreshDataArrival =>
    obtain ⟨rfl, rfl⟩ := Prod.mk.inj (Option.some.inj is)
    exact rowRanked_refreshData
  | joinReqArrival =>
    obtain ⟨rfl, rfl⟩ := Prod.mk.inj (Option.some.inj is)
    exact rowRanked_joinReq
  | dirArrival =>
    obtain ⟨rfl, rfl⟩ := Prod.mk.inj (Option.some.inj is)
    exact rowRanked_dir
  | snapArrival =>
    obtain ⟨rfl, rfl⟩ := Prod.mk.inj (Option.some.inj is)
    exact rowRanked_snap
  | syncEndArrival =>
    obtain ⟨rfl, rfl⟩ := Prod.mk.inj (Option.some.inj is)
    exact rowRanked_syncEnd
  | leaveArrival =>
    obtain ⟨rfl, rfl⟩ := Prod.mk.inj (Option.some.inj is)
    exact rowRanked_leave
  | _ => exact nomatch is

/-! ## The ranking after an arrival (R142, R143) -/

/-- The clock and the ranking after a good frame of station `x` (R142). -/
structure Arrived (x : Station) (s t : State) : Prop where
  now : t.now = s.now
  lastSender : t.liu.lastSender = some x
  fallback : t.liu.fallback = false
  activityEnd : t.liu.activityEnd = s.now

namespace Arrived

variable {p : Prop} {x : Station} {f : Frame} {s t u : State}

theorem ranked (h : Arrived x s t) (g : Ranked p t u) : Arrived x s u :=
  ⟨g.now.trans h.now, g.lastSender.trans h.lastSender, g.fallback.trans h.fallback, g.activityEnd.trans h.activityEnd⟩

theorem lineHeard (s : State) (x : Station) : Arrived x s (s.lineHeard x) := ⟨rfl, rfl, rfl, rfl⟩

theorem echoed (s : State) (x : Station) : Arrived x s (s.echoed x) := by
  obtain ⟨lastSender, fallback, activityEnd⟩ := s.echoed_ranking x
  exact ⟨((Ranked.refl (s.lineHeard x).leaveQueue).ownHeard (x := x)).now, lastSender, fallback, activityEnd⟩

theorem tabled (s : State) (x : Station) (f : Frame) : Arrived x s (s.tabled x f) := by
  have heard := lineHeard s x
  have written : Arrived x s ((s.lineHeard x).setMember x ((s.lineHeard x).senderEntry x f)) := ⟨rfl, rfl, rfl, rfl⟩
  unfold State.tabled
  dsimp only
  split
  · split
    · exact ⟨rfl, rfl, rfl, rfl⟩
    · exact written
  · exact heard

theorem heardFrom (s : State) (x : Station) (f : Frame) : Arrived x s (s.heardFrom x f) := by
  rw [State.heardFrom_eq]
  split
  · exact (tabled s x f).ranked ((Ranked.refl (p := False) _).dropSync)
  · exact tabled s x f

theorem duplicate (s : State) (x : Station) : Arrived x s (s.lineHeard x).duplicateNumber :=
  (lineHeard s x).ranked (Ranked.refl _).duplicateNumber

/-- A good frame at the blocks. -/
theorem frameArrives {deliver : Option Queued → State → State} (delivers : ∀ own s, Ranked False s (deliver own s)) (s : State)
    (x : Station) (f : Frame) : Arrived x s (s.frameArrives x f deliver) := by
  unfold State.frameArrives
  dsimp only
  split
  · exact (echoed s x).ranked (delivers _ _)
  · split
    · exact duplicate s x
    · exact (heardFrom s x f).ranked (delivers _ _)

end Arrived

theorem arrival_arrived {t : Time} {x : Station} {f : Frame} {deliver : Option Queued → State → State} {s : State}
    (powered : s.powered = true) (good : f.goodForm = true) (delivers : ∀ own s, Ranked False s (deliver own s)) :
    ∃ s', arrival t x f deliver s = .next s' ∧ Arrived x (s.advance t) s' :=
  ⟨_, arrival_concluded powered good, (Arrived.frameArrives delivers _ x f).ranked (Ranked.refl (p := False) _).conclude⟩

theorem partArrival_arrived {t : Time} {x : Station} {f : Frame} {kind : TransferKind} {p : PartField}
    {echoed : Queued → State → State} {suppress : State → State} {s : State} (powered : s.powered = true)
    (good : f.goodForm = true) (own : ∀ i s, Ranked False s (echoed i s)) (other : ∀ s, Ranked True s (suppress s)) :
    ∃ s', partArrival t x f kind p echoed suppress s = .next s' ∧ Arrived x (s.advance t) s' := by
  unfold partArrival
  rw [if_pos good, whenPowered_next powered]
  refine ⟨_, rfl, ?_⟩
  dsimp only
  split
  · exact ((Arrived.echoed _ x).ranked (own _ _)).ranked (Ranked.refl (p := False) _).conclude
  · split
    · exact (Arrived.duplicate _ x).ranked (Ranked.refl (p := False) _).conclude
    · exact (((Arrived.heardFrom _ x f).ranked (other _)).ranked (Ranked.refl (p := False) _).receivePart).ranked
        (Ranked.refl (p := False) _).concludeFrom

/-- A frame of bad form (R139, R143). -/
theorem faulty_follows {t : Time} {s : State} (powered : s.powered = true) :
    ∃ s', event t State.faultyFrameEnds s = .next s' ∧ s'.liu.activityEnd = s'.now ∧
      (s.liu.transmitter = .off → s'.liu.lastSender = s.liu.lastSender ∧ s'.liu.fallback = true ∧
        (s.liu.collisionEnd = none → s'.host.counters.frameErrors = raiseCounter s.host.counters.frameErrors)) := by
  refine ⟨_, event_concluded powered, ?_⟩
  have concluded : Ranked False (s.advance t).faultyFrameEnds ((s.advance t).faultyFrameEnds.conclude (s.advance t)) :=
    (Ranked.refl _).conclude
  rw [concluded.activityEnd, concluded.now, concluded.lastSender, concluded.fallback, concluded.frameErrors]
  refine ⟨?_, fun off => ?_⟩
  · unfold State.faultyFrameEnds
    split
    · split <;> rfl
    next q _ _ =>
      have failed := Ranked.transmitFailure (s.advance t).faultHeard q .off
      rw [failed.activityEnd, failed.now]
      rfl
    · rfl
  · rw [State.faultyFrameEnds_off (s := s.advance t) off]
    split
    next ends =>
      refine ⟨rfl, rfl, fun none => ?_⟩
      obtain ⟨e, is, -⟩ := State.endsOwnCollision_iff.1 ends
      exact nomatch none.symm.trans is
    · exact ⟨rfl, rfl, fun _ => rfl⟩

/-- The ranking after every row of an arrival (R139, R142, R143). -/
theorem arrivingFrame_ranks {c : Instr} {x : Station} {f : Frame} {s : State} (is : c.arrivingFrame = some (x, f))
    (powered : s.powered = true) :
    ∃ s', exec c s = .next s' ∧ s'.liu.activityEnd = s'.now ∧
      (f.goodForm = true → s'.liu.lastSender = some x ∧ s'.liu.fallback = false) ∧
      (f.goodForm = false → s.liu.transmitter = .off → s'.liu.lastSender = s.liu.lastSender ∧ s'.liu.fallback = true ∧
        (s.liu.collisionEnd = none → s'.host.counters.frameErrors = raiseCounter s.host.counters.frameErrors)) := by
  have row := rowRanked_of_arrivingFrame is
  cases good : f.goodForm with
  | true =>
    obtain ⟨t, s', next, arrived⟩ : ∃ t s', exec c s = .next s' ∧ Arrived x (s.advance t) s' := by
      obtain ⟨t, deliver, row, own, -⟩ | ⟨t, kind, p, echoed, suppress, row, own, other⟩ := row
      · obtain ⟨s', next, arrived⟩ := arrival_arrived (t := t) (x := x) powered good own
        exact ⟨t, s', (row s).trans next, arrived⟩
      · obtain ⟨s', next, arrived⟩ := partArrival_arrived (t := t) (x := x) (kind := kind) (p := p) powered good own other
        exact ⟨t, s', (row s).trans next, arrived⟩
    exact ⟨s', next, arrived.activityEnd.trans arrived.now.symm, fun _ => ⟨arrived.lastSender, arrived.fallback⟩, nofun⟩
  | false =>
    obtain ⟨t, row⟩ : ∃ t, exec c s = event t State.faultyFrameEnds s := by
      obtain ⟨t, deliver, row, -⟩ | ⟨t, kind, p, echoed, suppress, row, -⟩ := row
      · exact ⟨t, (row s).trans (by simp [arrival, good])⟩
      · exact ⟨t, (row s).trans (by simp [partArrival, good])⟩
    obtain ⟨s', next, gap, off⟩ := faulty_follows (t := t) powered
    exact ⟨s', row.trans next, gap, nofun, fun _ => off⟩

/-! ## The membership table after an arrival (R104, R107) -/

/-- The sender's entry in the words of R104. -/
theorem State.senderEntry_eq (s : State) (x : Station) (f : Frame) :
    s.senderEntry x f =
      let heard (p : Presence) : MemberEntry :=
        { presence := p, lastHeard := some s.now, absence := some (s.now + 30000000) }
      match f with
      | .leave => MemberEntry.absent
      | .joinReq => heard .joining
      | .object _ _ .budget _ _ => if (s.member x).presence = .joining then heard .joining else heard .member
      | _ => heard .member := by
  unfold State.senderEntry
  cases f with
  | object c r why owner v =>
    cases why
    case budget =>
      by_cases joining : (s.member x).presence = .joining <;> simp [presenceAfter, joining]
    all_goals simp [presenceAfter]
  | _ => simp [presenceAfter]

/-- The table after another station's good frame. -/
theorem arrivingFrame_tables {c : Instr} {x : Station} {f : Frame} {s : State} (is : c.arrivingFrame = some (x, f))
    (good : f.goodForm = true) (powered : s.powered = true) (listens : s.station.listens = true) (other : s.isSelf x = false) :
    ∃ t s', exec c s = .next s' ∧ s'.now = max s.now t ∧ (∀ y, y ≠ x → s.isSelf y = false → s'.member y = s.member y) ∧
      s'.member x = (s.advance t).senderEntry x f := by
  obtain ⟨t, s', next, ranked⟩ : ∃ t s', exec c s = .next s' ∧ Ranked True ((s.advance t).heardFrom x f) s' := by
    obtain ⟨t, deliver, row, -, delivers⟩ | ⟨t, kind, p, echoed, suppress, row, -, suppresses⟩ := rowRanked_of_arrivingFrame is
    · exact ⟨t, _, (row s).trans (arrival_of_other powered other good), (delivers _).conclude⟩
    · exact ⟨t, _, (row s).trans (partArrival_of_other powered other good), (suppresses _).receivePart.concludeFrom⟩
  have heard := (s.advance t).heardFrom_heard x f
  refine ⟨t, s', next, ranked.now.trans heard.now, fun y ne foreign => ?_, ?_⟩
  · rw [ranked.members trivial y ((heard.isSelf y).trans foreign), State.member_heardFrom_ne _ ne]
    rfl
  · rw [ranked.members trivial x ((heard.isSelf x).trans other), State.member_heardFrom_self (s := s.advance t) listens]

/-- Settles O38. -/
theorem everyGoodArrivalIsHeard : Obligations.EveryGoodArrivalIsHeard := by
  refine ⟨fun c x f s is powered => arrivingFrame_ranks is powered, fun c x f s is good powered listens other => ?_⟩
  obtain ⟨t, s', next, now, others, sender⟩ := arrivingFrame_tables is good powered listens other
  refine ⟨s', next, others, ?_⟩
  rw [sender, State.senderEntry_eq, now]
  rfl

end Sys2Proof.Machine
end

section
/-! PROOF. The entry into DETACHED at a duplicate number and at the own LEAVE (R113, R119, R120, R137), and another station's
PRESENCE and LEAVE at its holdings (R35, R36, R79, R107, R109). -/

-- One declaration at a time: side by side, the case splits of these proofs want more threads than the memory limit allows.
set_option Elab.async false

namespace Sys2Proof.Machine

/-! ## The entry into DETACHED (R98, R120) -/

theorem Liu.flying_congr {l k : Liu} (same : k.transmitter = l.transmitter) (q : QueueId) : k.flying q = l.flying q := by
  simp only [Liu.flying, same]

/-- With no frame of it in flight a withdrawn queue is empty (R157). -/
theorem Liu.withdrawn_of_ground {l : Liu} {q : QueueId} (ground : l.flying q = false) (p : Item → Bool) :
    (l.cancel q fun _ => true).markFlight q p = (l.setQueue q []).setWaiting q [] := by
  have cancelled : l.cancel q (fun _ => true) = (l.setQueue q []).setWaiting q [] := by
    simp [Liu.cancel, ground, dropUnbegun_ground]
  have ground' : ((l.setQueue q []).setWaiting q []).flying q = false := by
    rw [← ground]
    cases q <;> rfl
  simp only [cancelled, Liu.markFlight, ground']

/-- The queues are empty (R120, R157). -/
structure Liu.Drained (l : Liu) : Prop where
  reply : l.reply = []
  originated : l.originated = []
  replyWaiting : l.replyWaiting = []
  originatedWaiting : l.originatedWaiting = []

theorem State.withdrawQueues_drained {s : State} (ground : ∀ q, s.liu.flying q = false) : s.withdrawQueues.liu.Drained := by
  have first : (s.withdrawQueue .reply fun _ => false).liu = (s.liu.setQueue .reply []).setWaiting .reply [] :=
    Liu.withdrawn_of_ground (ground .reply) fun i => !((fun _ => false) i : Bool)
  have form : s.withdrawQueues.liu =
      (((s.liu.setQueue .reply []).setWaiting .reply []).setQueue .originated []).setWaiting .originated [] := by
    have ground' : (s.withdrawQueue .reply fun _ => false).liu.flying .originated = false := by
      rw [first]
      exact ground .originated
    calc s.withdrawQueues.liu
        = ((s.withdrawQueue .reply fun _ => false).liu.setQueue .originated []).setWaiting .originated [] :=
          Liu.withdrawn_of_ground ground' fun i => !((fun _ => false) i : Bool)
      _ = _ := by rw [first]
  rw [form]
  exact ⟨rfl, rfl, rfl, rfl⟩

/-- Leaving the line ends with the queues' withdrawal (R98, R120). -/
theorem Liu.Drained.leftLine {v : State} (h : v.withdrawQueues.liu.Drained) (f : Membership → Membership) :
    ((({ v.withdrawQueues with budget := [] } : State).withMembership f).withLiu fun l => { l with failures := 0 }).liu.Drained :=
  ⟨h.reply, h.originated, h.replyWaiting, h.originatedWaiting⟩

theorem State.leaveLine_drained {s : State} (ground : ∀ q, s.liu.flying q = false) : s.leaveLine.liu.Drained := by
  have left : Ranked False s (if s.station.participates then s.noticeLeftMember else s) :=
    (Ranked.refl s).noticeLeftMember.ite (Ranked.refl s)
  have cleared : Ranked False s (if s.station.participates then s.noticeLeftMember else s).clearTable :=
    left.trans ⟨rfl, rfl, rfl, rfl, rfl, False.elim⟩
  have emptied := (cleared.resetDirectory (e := Entry.unknown)).unsyncReplicas.emptyTransfer
  have flying (q : QueueId) : Liu.flying _ q = s.liu.flying q := Liu.flying_congr emptied.transmitter q
  unfold State.leaveLine
  exact (State.withdrawQueues_drained fun q => (flying q).trans (ground q)).leftLine _

/-- The station after its entry into DETACHED with its transmitter off, and after the event's conclusion (R113, R120). -/
structure Detached (s t : State) : Prop where
  station : t.station = .detached
  faultCause : t.membership.faultCause = s.membership.faultCause
  table : ∀ y, t.member y = MemberEntry.absent
  directory : ∀ r, t.entry r = Entry.unknown
  replicas : ∀ r, t.replica r = { s.replica r with condition := .unsynced, attempts := 0 }
  transfer : t.transfer = Transfer.empty
  budget : t.budget = []
  config : t.host.config = s.host.config
  drained : t.liu.Drained
  stateChanged : t.host.stateChanged = true

theorem State.enterDetached_concluded {s : State} (off : s.liu.transmitter = .off) (before : State) :
    Detached s (s.enterDetached.conclude before) := by
  have line := s.enterDetached_lineOnly
  have step : s.enterDetached.inStep before := .inr (.inr (.inr (by rw [line.station]; exact nofun)))
  have stays : s.enterDetached.station ≠ .leaving := by
    rw [line.station]
    exact nofun
  have replica (r : Region) : s.enterDetached.replica r = { s.replica r with condition := .unsynced, attempts := 0 } :=
    (line.replica r).trans (s.core.replica_offLine r)
  have form : s.enterDetached.conclude before = s.enterDetached.retryOpen before := by
    rw [State.conclude, State.concludeFrom, State.requestResync_of_inStep step]
    exact State.endReleases_of_not_leaving (by rw [(State.retryOpen_lineOnly _ before).station]; exact stays)
  have liu : (s.enterDetached.retryOpen before).liu = s.enterDetached.liu :=
    State.retryOpen_liu_of_none_current fun r => by simp [State.isCurrent, replica]
  have drained := State.leaveLine_drained (Liu.flying_of_off off)
  have retried : CommandOnly s.enterDetached (s.enterDetached.retryOpen before) := (CommandOnly.refl _).retryOpen
  rw [form]
  exact ⟨retried.station.trans line.station, retried.faultCause.trans line.faultCause,
    fun y => (retried.member y).trans ((line.member y).trans (s.core.member_offLine y)),
    fun r => (retried.entry r).trans ((line.entry r).trans (s.core.entry_offLine r)), fun r => (retried.replica r).trans (replica r),
    retried.transfer.trans line.transfer, retried.budget.trans line.budget, retried.config.trans line.config,
    liu ▸ ⟨drained.reply, drained.originated, drained.replyWaiting, drained.originatedWaiting⟩,
    retried.stateChanged.trans (State.setStation_stateChanged _ _)⟩

/-! ## The duplicate number (R119, R120) -/

/-- A good frame with this station's number, while it sends nothing, is no echo (R119, R142). -/
theorem arrivingFrame_duplicate {c : Instr} {x : Station} {f : Frame} {s : State} (is : c.arrivingFrame = some (x, f))
    (good : f.goodForm = true) (powered : s.powered = true) (self : s.isSelf x = true) (off : s.liu.transmitter = .off) :
    ∃ t, exec c s = .next ((((s.advance t).lineHeard x).duplicateNumber).conclude (s.advance t)) := by
  have silent (t : Time) : ((s.advance t).lineHeard x).ownFrame x f = none := by
    have off' : ((s.advance t).lineHeard x).liu.transmitter = .off := off
    simp [State.ownFrame, off']
  have self' (t : Time) : ((s.advance t).lineHeard x).isSelf x = true := self
  obtain ⟨t, deliver, row, -⟩ | ⟨t, kind, p, echoed, suppress, row, -⟩ := rowRanked_of_arrivingFrame is
  · refine ⟨t, (row s).trans ((arrival_concluded powered good).trans ?_)⟩
    simp only [State.frameArrives, silent, self', if_true]
  · refine ⟨t, (row s).trans ?_⟩
    simp only [partArrival, good, if_true, whenPowered, powered, silent, self']

/-- Settles O39. -/
theorem duplicateNumberDetaches : Obligations.DuplicateNumberDetaches := by
  intro c x f s is good powered checks self off
  obtain ⟨t, next⟩ := arrivingFrame_duplicate is good powered self off
  have checks' : ((s.advance t).lineHeard x).station.checksNumber = true := checks
  have form : ((s.advance t).lineHeard x).duplicateNumber =
      (((s.advance t).lineHeard x).withMembership fun m => { m with faultCause := .duplicateNumber }).enterDetached := if_pos checks'
  rw [form] at next
  have detached := State.enterDetached_concluded
    (s := ((s.advance t).lineHeard x).withMembership fun m => { m with faultCause := .duplicateNumber }) off (s.advance t)
  exact ⟨_, next, detached.station, detached.faultCause, detached.table, detached.directory,
    fun r => by rw [detached.replicas]; exact ⟨rfl, rfl, rfl⟩, detached.transfer, detached.budget, detached.drained.reply,
    detached.drained.originated, detached.drained.replyWaiting, detached.drained.originatedWaiting, detached.config,
    detached.stateChanged⟩

/-! ## Holdings that another station's frame ends (R109) -/

/-- The settlement of several holdings of one station (R109). -/
theorem State.foldl_settle (why : SettleReason) (x : Station) (rs : List Region) (nodup : rs.Nodup) (s : State) :
    DirectoryOnly s (rs.foldl (fun s r => s.settle r why x true) s) ∧
      (∀ q, (rs.foldl (fun s r => s.settle r why x true) s).entry q = if q ∈ rs then s.settled q why x else s.entry q) ∧
      ∀ q, q ∈ s.host.changeSet ∨ (q ∈ rs ∧ (s.entry q).heldBy x = true) →
        q ∈ (rs.foldl (fun s r => s.settle r why x true) s).host.changeSet := by
  induction rs generalizing s with
  | nil => exact ⟨.refl s, fun q => (if_neg List.not_mem_nil).symm, fun q mem => mem.elim id fun no => nomatch no.1⟩
  | cons r rs ih =>
    obtain ⟨fresh, nodup'⟩ := List.nodup_cons.1 nodup
    obtain ⟨only, entries, told⟩ := ih nodup' (s.settle r why x true)
    have one : DirectoryOnly s (s.settle r why x true) := (DirectoryOnly.refl s).settle
    have entry (q : Region) := s.entry_settle r q why x true
    refine ⟨one.trans only, fun q => ?_, fun q mem => told q ?_⟩
    · rw [List.foldl_cons, entries]
      by_cases eq : q = r
      · rw [eq, if_neg fresh, if_pos List.mem_cons_self, entry, if_pos rfl]
      · have same : (s.settle r why x true).settled q why x = s.settled q why x := by
          simp only [State.settled, entry, if_neg eq, one.now]
        simp only [List.mem_cons, eq, false_or, same, entry, if_false]
    · have kept := s.settle_commandOnly r why x true
      have grown : q ∈ s.host.changeSet → q ∈ (s.settle r why x true).host.changeSet := fun mem => by
        rw [kept.changeSet]
        unfold State.changeEntry
        dsimp only
        split
        · exact mem_insertAscending.2 (.inr mem)
        · exact mem
      rcases mem with mem | ⟨mem, held⟩
      · exact .inl (grown mem)
      · by_cases eq : q = r
        · exact .inl (eq ▸ (State.settle_settled why (eq ▸ held)).told)
        · exact .inr ⟨(List.mem_cons.1 mem).resolve_left eq, by rw [entry, if_neg eq]; exact held⟩

/-! ## PRESENCE (R109) -/

/-- The holdings that a PRESENCE with held count 0 contradicts: those whose lease began before the frame did, 7 µs before its
arrival (R109). -/
theorem State.mem_contradicted {s : State} {x : Station} {st : PresenceState} {held : Byte} {r : Region} :
    r ∈ allRegions.filter (s.contradicted x (Frame.presence st held).lineTime) ↔
      ∃ l side, (s.entry r).state = .held x l side ∧ l + 7000 < s.now + s.leaseTime := by
  have time : (Frame.presence st held).lineTime = 7000 := rfl
  simp only [List.mem_filter, allRegions, List.mem_finRange, true_and, time, State.contradicted]
  cases state : (s.entry r).state with
  | held o l side =>
    simp only [Bool.and_eq_true, beq_iff_eq, decide_eq_true_eq, EntryState.held.injEq]
    exact ⟨fun ⟨is, early⟩ => ⟨l, side, ⟨is, rfl, rfl⟩, early⟩, fun ⟨_, _, ⟨is, lease, _⟩, early⟩ => ⟨is, lease ▸ early⟩⟩
  | unknown | free | claimed | settling => simp

/-- Settles O40: with held count 0 the presence check settles exactly the contradicted holdings. -/
theorem presenceEndsContradictedHoldings : Obligations.PresenceEndsContradictedHoldings := by
  intro t x st held s powered other transmits quiet bound
  have heard := (s.advance t).heardFrom_heard x (.presence st held)
  have good : (Frame.presence st held).goodForm = true := decide_eq_true bound
  generalize is : (s.advance t).heardFrom x (.presence st held) = h at heard
  have entry (q : Region) : h.entry q = s.entry q := heard.entry q
  have transmits' : h.station.transmits = true := (congrArg StationState.transmits heard.station).trans transmits
  have follows {d : State} (form : (if held = 0 then h.presenceCheck x (.presence st held) else h) = d) (kept : StationKept h d) :
      ∃ s', exec (.presenceArrival t x st held) s = .next s' ∧ CommandOnly d s' :=
    arrival_other_commandOnly (f := .presence st held) powered other good (by rw [is, ← form]; simp) (kept.notResyncing
      (heard.notResyncing quiet)) (State.inStep_of_replicas (kept.replicas.trans heard.replicas))
  by_cases zero : held = 0
  · have form : (if held = 0 then h.presenceCheck x (.presence st held) else h) =
        (allRegions.filter (h.contradicted x (Frame.presence st held).lineTime)).foldl (fun s r => s.settle r .expired x true) h := by
      rw [if_pos zero, State.presenceCheck, if_pos transmits']
    obtain ⟨only, entries, told⟩ := State.foldl_settle .expired x
      (allRegions.filter (h.contradicted x (Frame.presence st held).lineTime)) ((List.nodup_finRange 64).filter _) h
    obtain ⟨s', next, kept⟩ := follows form only.toStationKept
    have instant : h.now + h.leaseTime = max s.now t + s.leaseTime := by rw [heard.now, heard.leaseTime]; rfl
    refine ⟨s', next, kept.replicas.trans (only.replicas.trans heard.replicas), fun no => absurd zero no, fun _ r =>
      ⟨fun l side state early => ?_, fun later => ?_⟩⟩
    · have mem : r ∈ allRegions.filter (h.contradicted x (Frame.presence st held).lineTime) :=
        State.mem_contradicted.2 ⟨l, side, (congrArg Entry.state (entry r)).trans state, instant ▸ early⟩
      refine ⟨?_, ?_⟩
      · rw [kept.entry, entries, if_pos mem, State.settled, entry, heard.now]
        rfl
      · rw [kept.changeSet]
        exact told r (.inr ⟨mem, Entry.heldBy_iff.2 ⟨l, side, (congrArg Entry.state (entry r)).trans state⟩⟩)
    · rw [kept.entry, entries, if_neg, entry]
      intro mem
      obtain ⟨l, side, state, early⟩ := State.mem_contradicted.1 mem
      exact Nat.not_lt.2 (later l side ((congrArg Entry.state (entry r)).symm.trans state)) (instant ▸ early)
  · obtain ⟨s', next, kept⟩ := follows (if_neg zero) (RegionsKept.refl h).toStationKept
    exact ⟨s', next, kept.replicas.trans heard.replicas, fun _ => kept.directory.trans heard.directory, fun no => absurd no zero⟩

/-! ## LEAVE (R36, R107, R113) -/

/-- Station `x` holds or claims the region. -/
def Entry.isOf (e : Entry) (x : Station) : Prop :=
  e.heldBy x = true ∨ ∃ n d, e.state = .claimed { station := x, number := n } d

/-- The region of a holding or claim that a departure ends is told (R2, R35, R36). -/
theorem State.departRegion_told {s : State} {x : Station} {r : Region} (why : SettleReason) (is : (s.entry r).isOf x) :
    r ∈ (s.departRegion x why r).host.changeSet := by
  have kept {v : State} (told : r ∈ v.host.changeSet) : r ∈ (if (v.entry r).overheard.any (fun o => o.claim.station == x) then
      v.setEntry r { v.entry r with overheard := none } else v).host.changeSet := by
    split
    · exact told
    · exact told
  unfold State.departRegion
  rcases is with held | ⟨n, d, claimed⟩
  · obtain ⟨l, side, state⟩ := Entry.heldBy_iff.1 held
    simp only [state, if_true]
    exact kept (State.settle_settled why held).told
  · simp only [claimed, if_true]
    exact kept (State.mem_changeSet_changeEntry (by simp [Entry.view, claimed, EntryState.view]))

theorem State.foldl_departRegion_told {x : Station} {why : SettleReason} {r : Region} {rs : List Region} (nodup : rs.Nodup)
    {s : State} (mem : r ∈ rs) (is : (s.entry r).isOf x) : r ∈ (rs.foldl (State.departRegion x why) s).host.changeSet := by
  induction rs generalizing s with
  | nil => exact absurd mem List.not_mem_nil
  | cons q rest ih =>
    obtain ⟨fresh, nodup'⟩ := List.nodup_cons.1 nodup
    rcases List.mem_cons.1 mem with eq | later
    · have rest' : Evolves False False (s.departRegion x why q) (rest.foldl (State.departRegion x why) (s.departRegion x why q)) :=
        (Evolves.refl _).foldl Evolves.departRegion
      exact rest'.told (eq ▸ State.departRegion_told why is)
    · have ne : r ≠ q := fun eq => fresh (eq ▸ later)
      have entry := ((s.departRegion_entry x why q).2 r).trans (if_neg ne)
      exact ih nodup' later (entry.symm ▸ is)

/-- The regions that station `x` held or claimed are told at the notice that it is gone. -/
theorem State.stationGone_told {s : State} {x : Station} (why : SettleReason) {r : Region} (is : (s.entry r).isOf x) :
    r ∈ (s.stationGone x why).host.changeSet := by
  have told := State.foldl_departRegion_told (why := why) (rs := allRegions) (List.nodup_finRange 64) (List.mem_finRange r) is
  unfold State.stationGone
  generalize allRegions.foldl (State.departRegion x why) s = v at told
  have grows : Evolves False False v v := .refl v
  exact (Evolves.ifSo (grows.cancel.dropJobsFor.ifSo Evolves.abandonReception) Evolves.joinFails).told told

/-- A departure keeps the last owner of a region that the station does not hold (R35, R36). -/
theorem Entry.departed_lastOwner {e : Entry} {x : Station} (why : SettleReason) (now : Time) (other : e.heldBy x = false) :
    (e.departed x why now).lastOwner = e.lastOwner := by
  obtain ⟨state, last, overheard⟩ := e
  unfold Entry.departed
  rw [(Entry.forget_state _ x).2]
  cases state with
  | held o l side =>
    have ne : o ≠ x := fun is => by simp [is, Entry.heldBy, EntryState.view] at other
    simp [ne]
  | claimed c k => by_cases is : c.station = x <;> simp [is]
  | unknown | free | settling => rfl

/-- Another station's LEAVE (R36, R79, R107). -/
theorem leave_follows {t : Time} {x : Station} {s : State} (powered : s.powered = true) (other : s.isSelf x = false)
    (listens : s.station.listens = true) (quiet : s.notResyncing) (apart : s.station = .joining → s.isResponder x = false) :
    ∃ s', exec (.leaveArrival t x) s = .next s' ∧ s'.member x = MemberEntry.absent ∧ s'.replicas = s.replicas ∧
      (∀ job, job ∈ s'.transfer.jobs → job.isFor x = false) ∧
      (∀ r, s'.entry r = (s.entry r).departed x .ownerLeft (max s.now t)) ∧
      ∀ r, (s.entry r).isOf x → r ∈ s'.host.changeSet := by
  have heard := (s.advance t).heardFrom_heard x .leave
  have absent : ((s.advance t).heardFrom x .leave).member x = MemberEntry.absent :=
    (State.member_heardFrom_self (s := s.advance t) listens x .leave).trans (State.senderEntry_eq _ x .leave)
  generalize is : (s.advance t).heardFrom x .leave = h at heard absent
  have entry (q : Region) : h.entry q = s.entry q := heard.entry q
  have listens' : h.station.listens = true := (congrArg StationState.listens heard.station).trans listens
  have form : h.leaveArrives x = h.stationGone x .ownerLeft := if_pos listens'
  obtain ⟨gone, membership, jobs, entries⟩ := State.stationGone_follows (s := h) (x := x) (why := .ownerLeft)
    (fun joining => (heard.isResponder x).trans (apart (heard.station.symm.trans joining)))
  obtain ⟨s', next, kept⟩ := arrival_other_commandOnly (t := t) (x := x) (f := .leave)
    (deliver := fun own s => if own.isSome then s.leaveEchoed else s.leaveArrives x) (d := h.stationGone x .ownerLeft) powered other
    rfl (by rw [is]; exact form) (gone.notResyncing (heard.notResyncing quiet))
    (State.inStep_of_replicas (gone.replicas.trans heard.replicas))
  refine ⟨s', next, (kept.member x).trans ((State.member_congr membership x).trans absent),
    kept.replicas.trans (gone.replicas.trans heard.replicas), fun job mem => jobs job (kept.transfer ▸ mem), fun r => ?_,
    fun r mine => ?_⟩
  · rw [kept.entry, entries, entry, heard.now]
    rfl
  · rw [kept.changeSet]
    exact State.stationGone_told .ownerLeft ((entry r).symm ▸ mine)

/-- Settles O41. -/
theorem leaveEndsItsSendersHoldings : Obligations.LeaveEndsItsSendersHoldings := by
  refine ⟨fun t x s powered other listens quiet apart => ?_, fun t x i rest s powered self leaving flies => ?_⟩
  · obtain ⟨s', next, absent, replicas, jobs, entries, told⟩ := leave_follows (t := t) powered other listens quiet apart
    refine ⟨s', next, absent, replicas, jobs, fun r => ?_⟩
    obtain ⟨held, claimed, others⟩ := (s.entry r).departed_state x .ownerLeft (max s.now t)
    rw [entries r]
    refine ⟨fun mine => ⟨(held mine).1, (held mine).2, told r (.inl mine)⟩, fun n d state => ?_, fun no none =>
      ⟨others no none, Entry.departed_lastOwner _ _ no⟩⟩
    have no : (s.entry r).heldBy x = false := by simp [Entry.heldBy, EntryState.view, state]
    exact ⟨claimed n d state, Entry.departed_lastOwner _ _ no, told r (.inr ⟨n, d, state⟩)⟩
  · have echo := State.echoed_echo (s := s.advance t) (x := x) flies
    have leaving' : ((s.advance t).echoed x).station = .leaving := echo.station.trans leaving
    have form : ((s.advance t).echoed x).leaveEchoed = ((s.advance t).echoed x).enterDetached := if_pos leaving'
    have next := arrival_of_own (t := t) (deliver := fun own s => if own.isSome then s.leaveEchoed else s.leaveArrives x) powered self
      rfl flies
    have detached := State.enterDetached_concluded (s := (s.advance t).echoed x) echo.off (s.advance t)
    refine ⟨_, next, ?_⟩
    rw [show (if (some i).isSome = true then ((s.advance t).echoed x).leaveEchoed else ((s.advance t).echoed x).leaveArrives x) =
      _ from form]
    exact ⟨detached.station, detached.faultCause.trans echo.faultCause, detached.directory, detached.drained.originated⟩

end Sys2Proof.Machine
end

section
/-! PROOF. The answer to a REFRESH-REQ and the opening of a reception (R73 to R75, R81, R82, R91, R124, R126). -/

-- One declaration at a time: side by side, the case splits of these proofs want more threads than the memory limit allows.
set_option Elab.async false

namespace Sys2Proof.Machine

/-! ## Placing in the reply queue (R155) -/

theorem State.place_reply {s : State} {i : Item} (free : s.replyFree) (other : ∀ r, i ≠ .claim r none) :
    s.place .reply i = s.withLiu fun l => { l with reply := l.reply ++ [{ item := i, marked := false }] } := by
  rw [State.place_of_room (q := .reply) free.1 free.2, State.append_of_ne other]
  rfl

theorem State.replyFree_heardFrom {s : State} (idle : s.transfer.jobs = []) (free : s.replyFree) (x : Station) (f : Frame) :
    (s.heardFrom x f).replyFree := by
  obtain ⟨-, reply, waiting⟩ := State.heardFrom_idle idle x f
  exact ⟨reply ▸ free.1, waiting.trans free.2⟩

/-! ## The answerer's view (R73, R126) -/

/-- The lowest-numbered other member in a station's view does not hang on the entry of the station that asks (R73, R126). -/
theorem State.lowestMember_congr {s t : State} {q : Station} (same : ∀ y, y ≠ q → t.member y = s.member y) :
    t.lowestMember q = s.lowestMember q := by
  unfold State.lowestMember
  congr 1
  funext y
  by_cases is : y = q
  · simp [is]
  · rw [same y is]

theorem State.answerer_congr {s t : State} {q : Station} {r : Region} (entry : t.entry r = s.entry r)
    (same : ∀ y, y ≠ q → t.member y = s.member y) : t.answerer r q = s.answerer r q := by
  have last : ∀ y, (y != q && (t.member y).presence == .member) = (y != q && (s.member y).presence == .member) := by
    intro y
    by_cases is : y = q
    · simp [is]
    · rw [same y is]
  simp only [State.answerer, entry, State.lowestMember_congr same, last]

/-! ## The outgoing jobs begin to be served (R72, R75, R128) -/

theorem State.serveNext_refresh {s : State} {r : Region} {q : Station} (only : s.transfer.jobs = [.refresh r q .waiting])
    (free : s.replyFree) :
    s.serveNext.transfer.jobs = [.refresh r q (.at 0)] ∧
      s.serveNext.liu.reply = s.liu.reply ++ [{ item := .partZero .refresh q r, marked := false }] := by
  have form : s.serveNext = s.startRefresh r q := by simp [State.serveNext, only, Job.running]
  rw [form, State.startRefresh, State.place_reply (s := s.mapJobs _) free (by exact nofun)]
  refine ⟨?_, rfl⟩
  show s.transfer.jobs.map _ = _
  simp [only, Job.setRefreshStage, Job.isRefresh]

/-- A job that is added leaves everything but the job list and the reply queue (R74, R126). -/
theorem State.addJob_heard (s : State) (job : Job) :
    Heard s (s.withTransfer fun x => { x with jobs := x.jobs ++ [job] }).serveNext :=
  Heard.trans (s := s.withTransfer fun x => { x with jobs := x.jobs ++ [job] })
    ⟨⟨⟨rfl, rfl, rfl, rfl, rfl, rfl⟩, rfl⟩, rfl, rfl, rfl, rfl, rfl, rfl⟩ (State.serveNext_heard _)

theorem State.refreshRequested_heard (s : State) (r : Region) (q : Station) : Heard s (s.refreshRequested r q) :=
  (s.addJob_heard _).ite (.refl s)

/-- This station answers: it names itself, and its replica is CURRENT (R73, R74). -/
def State.answers (s : State) (r : Region) (q : Station) : Prop :=
  s.station.participates = true ∧ (s.answerer r q).any s.isSelf = true ∧ (s.replica r).condition = .current

theorem State.refreshRequested_answers {s : State} {r : Region} {q : Station} (idle : s.transfer.jobs = [])
    (answers : s.answers r q) (free : s.replyFree) :
    (s.refreshRequested r q).transfer.jobs = [.refresh r q (.at 0)] ∧
      (s.refreshRequested r q).liu.reply = s.liu.reply ++ [{ item := .partZero .refresh q r, marked := false }] := by
  obtain ⟨participates, named, current⟩ := answers
  have isCurrent : s.isCurrent r = true := by simp [State.isCurrent, current]
  have form : s.refreshRequested r q = (s.withTransfer fun x => { x with jobs := x.jobs ++ [.refresh r q .waiting] }).serveNext := by
    simp [State.refreshRequested, participates, named, isCurrent, idle, Config.jobLimit]
  rw [form]
  have only : (s.withTransfer fun x => { x with jobs := x.jobs ++ [.refresh r q .waiting] }).transfer.jobs =
      [.refresh r q .waiting] := by
    show s.transfer.jobs ++ _ = _
    rw [idle]
    rfl
  exact State.serveNext_refresh only free

theorem State.refreshRequested_silent {s : State} {r : Region} {q : Station} (no : ¬ s.answers r q) : s.refreshRequested r q = s := by
  refine if_neg fun asked => no ?_
  simp only [Bool.and_eq_true] at asked
  obtain ⟨⟨⟨⟨participates, named⟩, current⟩, -⟩, -⟩ := asked
  exact ⟨participates, named, beq_iff_eq.1 current⟩

theorem Heard.answers_iff {s h : State} {r : Region} {q : Station} (heard : Heard s h) (same : ∀ y, y ≠ q → h.member y = s.member y) :
    h.answers r q ↔ s.answers r q := by
  have self : h.isSelf = s.isSelf := funext heard.isSelf
  simp only [State.answers, heard.station, State.answerer_congr (heard.entry r) same, self, heard.replica]

/-- Settles O42. -/
theorem refreshRequestsAreAnswered : Obligations.RefreshRequestsAreAnswered := by
  refine ⟨fun t q r s powered other quiet idle => ?_, fun t x r i rest s powered self quiet flies queued => ?_⟩
  · have heard := (s.advance t).heardFrom_heard q (.refreshReq r)
    have same (y : Station) (ne : y ≠ q) := State.member_heardFrom_ne (s.advance t) ne (.refreshReq r)
    obtain ⟨transfer, reply, waiting⟩ := State.heardFrom_idle (s := s.advance t) idle q (.refreshReq r)
    generalize is : (s.advance t).heardFrom q (.refreshReq r) = h at heard same transfer reply waiting
    have idle' : h.transfer.jobs = [] := (congrArg Transfer.jobs transfer).trans idle
    have answers : h.answers r q ↔ s.answers r q := heard.answers_iff same
    have asked := h.refreshRequested_heard r q
    obtain ⟨s', next, kept⟩ := arrival_other_commandOnly (t := t) (x := q) (f := .refreshReq r)
      (deliver := fun own s => if own.isSome then s.refreshReqEchoed else s.refreshRequested r q) (d := h.refreshRequested r q) powered
      other rfl (by rw [is]; rfl) (asked.notResyncing (heard.notResyncing quiet))
      (State.inStep_of_replicas (asked.replicas.trans heard.replicas))
    refine ⟨s', next, kept.replicas.trans (asked.replicas.trans heard.replicas),
      kept.directory.trans (asked.directory.trans heard.directory), fun participates named current free => ?_, fun no => ?_⟩
    · obtain ⟨jobs, placed⟩ := State.refreshRequested_answers idle' (answers.2 ⟨participates, named, current⟩)
        ⟨reply ▸ free.1, waiting.trans free.2⟩
      exact ⟨(congrArg Transfer.jobs kept.transfer).trans jobs, kept.reply.trans (placed.trans (congrArg (· ++ _) reply))⟩
    · have silent : ¬ h.answers r q := fun yes => by
        obtain ⟨participates, named, current⟩ := answers.1 yes
        simp [participates, named, current] at no
      rw [State.refreshRequested_silent silent] at kept
      exact ⟨(congrArg Transfer.jobs kept.transfer).trans idle', kept.reply.trans reply⟩
  · have echo := State.echoed_echo (s := s.advance t) (x := x) flies
    have next := arrival_of_own (t := t) (deliver := fun own s => if own.isSome then s.refreshReqEchoed else s.refreshRequested r x)
      powered self rfl flies
    generalize (s.advance t).echoed x = e at echo next
    have queued' : e.transfer.repairStage = .requestQueued := (congrArg Transfer.repairStage echo.transfer).trans queued
    have form : e.refreshReqEchoed = e.withTransfer fun x =>
        { x with repairStage := .awaitingPart0, refreshTimer := some (e.now + Config.refreshTimeout) } := if_pos queued'
    have kept : CommandOnly e.refreshReqEchoed (e.refreshReqEchoed.conclude (s.advance t)) := by
      rw [form]
      exact State.conclude_commandOnly (echo.notResyncing quiet) (State.inStep_of_replicas echo.replicas)
    refine ⟨_, next, ?_⟩
    rw [show (if (some i).isSome = true then e.refreshReqEchoed else e.refreshRequested r x) = e.refreshReqEchoed from rfl,
      kept.transfer, form]
    have list : e.transfer.repairList = s.transfer.repairList := congrArg Transfer.repairList echo.transfer
    exact ⟨rfl, congrArg (fun n => some (n + Config.refreshTimeout)) echo.now, list⟩

/-! ## A reception opens (R81, R82) -/

/-- The next attempt of a waiting OPEN and the end of the releases, after an event whose rise is measured at its end (R54). -/
theorem State.concludeFrom_commandOnly {s before : State} {n : Nat} (quiet : s.notResyncing) 
    (step : s.outOfStep ≤ n ∨ s.outOfStep < 16) : CommandOnly s (s.concludeFrom before n) := by
  have none : s.requestResync before n = s := by
    refine if_neg ?_
    simp only [Bool.and_eq_true, decide_eq_true_eq, not_and]
    exact fun rise many => step.elim (fun no => absurd rise.2 (Nat.not_lt.2 no)) fun few => absurd many (Nat.not_le.2 few)
  rw [State.concludeFrom, none]
  have retried := (CommandOnly.refl s).retryOpen (before := before)
  exact retried.trans (CommandOnly.endReleases (retried.notResyncing quiet))

/-- What a restart of the gap deadline leaves (R124). -/
structure GapOnly (s t : State) : Prop extends RegionsKept s t where
  transfer : t.transfer = s.transfer
  host : t.host = s.host
  liu : t.liu = s.liu
  unit : t.unit = s.unit
  budget : t.budget = s.budget
  responder : ∀ x, t.isResponder x = s.isResponder x

theorem State.restartGap_gapOnly (s : State) (x j : Station) : GapOnly s (s.restartGap x j) := by
  unfold State.restartGap
  split
  · refine ⟨⟨⟨rfl, rfl, rfl, rfl, rfl, rfl⟩, rfl⟩, rfl, rfl, rfl, rfl, rfl, fun y => ?_⟩
    show Option.any _ (Option.map _ s.membership.join) = _
    unfold State.isResponder
    cases s.membership.join <;> rfl
  · exact ⟨.refl s, rfl, rfl, rfl, rfl, rfl, fun _ => rfl⟩

theorem receivePart_of_openRefresh {s : State} {x : Station} {p : PartField} (closed : s.transfer.reception = none)
    (zero : p.part = 0) : s.receivePart .refresh x p = (s.openRefresh x p, (s.openRefresh x p).outOfStep) := by
  simp only [State.receivePart, State.partReceived, closed, zero, if_true, State.replayCatchUp]

theorem receivePart_of_openSnap {s : State} {x : Station} {p : PartField} (closed : s.transfer.reception = none)
    (zero : p.part = 0) : s.receivePart .snap x p = (s.openSnap x p, (s.openSnap x p).outOfStep) := by
  simp only [State.receivePart, State.partReceived, closed, zero, if_true, State.replayCatchUp]

/-- The reception that part 0 opens at instant `now` (R81, R82). -/
def receptionOf (p : PartField) (x : Station) (kind : TransferKind) (now : Time) : Reception :=
  { region := p.region, source := x, kind := kind, version := p.version, next := 1, buffer := writeBytes [] 0 p.data,
    catchUp := [], deadline := now + 2000000 }

/-- The conditions of R81. -/
theorem State.openRefresh_opens {s : State} {x : Station} {p : PartField} (member : s.station = .member)
    (self : s.isSelf p.peer = true) (head : s.transfer.repairList.head? = some p.region) (out : s.transfer.repairStage ≠ .idle) :
    RegionsKept s (s.openRefresh x p) ∧ (s.openRefresh x p).transfer =
      { s.transfer with
        reception := some (receptionOf p x .refresh s.now), repairList := s.transfer.repairList.filter (fun q => q != p.region),
        repairStage := .idle, refreshTimer := none } := by
  have form : s.openRefresh x p = ((s.openReception .refresh x p).withTransfer fun y =>
      { y with repairList := y.repairList.filter (· != p.region), repairStage := .idle, refreshTimer := none }).cancel .originated
        Item.isRefreshReq := by
    refine if_pos ?_
    simp [member, StationState.participates, head, out, self]
  rw [form]
  exact ⟨⟨⟨rfl, rfl, rfl, rfl, rfl, rfl⟩, rfl⟩, rfl⟩

/-- The conditions of R82. -/
theorem State.openSnap_opens {s : State} {x : Station} {p : PartField} (joining : s.station = .joining)
    (self : s.isSelf p.peer = true) (responder : s.isResponder x = true) (known : (s.entry p.region).state ≠ .unknown)
    (unsynced : (s.replica p.region).condition = .unsynced) :
    s.openSnap x p = s.withTransfer fun y => { y with reception := some (receptionOf p x .snap s.now) } := by
  refine if_pos ?_
  have known' : (s.entry p.region).isUnknown = false := by
    cases state : (s.entry p.region).state with
    | unknown => exact absurd state known
    | free | claimed | held | settling => simp [Entry.isUnknown, EntryState.view, state]
  have responder' : (s.membership.join.any fun j => j.responder == some x) = true := responder
  simp [joining, self, responder', known', unsynced]

/-! ## Another station's part (R79, R124, R127) -/

/-- The row of a part's arrival. -/
def partRow (kind : TransferKind) (t : Time) (x : Station) (p : PartField) : Instr :=
  match kind with
  | .refresh => .refreshDataArrival t x p
  | .snap => .snapArrival t x p

/-- The station `t` in which the receive side of `s` finds another station's part, where no job is under way. -/
structure PartFound (s t : State) : Prop extends RegionsKept s t where
  transfer : t.transfer = s.transfer
  host : t.host = s.host
  budget : t.budget = s.budget
  responder : ∀ x, t.isResponder x = s.isResponder x

theorem part_found {t : Time} {x : Station} {p : PartField} {s : State} (kind : TransferKind) (powered : s.powered = true)
    (other : s.isSelf x = false) (good : p.goodForm = true) (idle : s.transfer.jobs = []) :
    ∃ g, PartFound (s.advance t) g ∧ exec (partRow kind t x p) s =
      .next ((g.receivePart kind x p).1.concludeFrom (s.advance t) (g.receivePart kind x p).2) := by
  cases kind with
  | refresh =>
    have heard := (s.advance t).heardFrom_heard x (.refreshData p)
    obtain ⟨transfer, -, -⟩ := State.heardFrom_idle (s := s.advance t) idle x (.refreshData p)
    have next := partArrival_of_other (t := t) (x := x) (f := .refreshData p) (kind := .refresh) (p := p)
      (echoed := fun x s => s.jobEchoed x fun s => s.refreshPartEchoed p) (suppress := fun s => s.suppressRefresh p) powered other good
    rw [State.suppressRefresh_of_idle ((congrArg Transfer.jobs transfer).trans idle)] at next
    exact ⟨_, ⟨heard.toRegionsKept, transfer, heard.host, heard.budget, heard.isResponder⟩, next⟩
  | snap =>
    have heard := (s.advance t).heardFrom_heard x (.snap p)
    obtain ⟨transfer, -, -⟩ := State.heardFrom_idle (s := s.advance t) idle x (.snap p)
    have next := partArrival_of_other (t := t) (x := x) (f := .snap p) (kind := .snap) (p := p)
      (echoed := fun y s => s.syncEchoed y x p.peer fun s => s.snapPartEchoed p)
      (suppress := fun s => (s.suppressSync p.peer).restartGap x p.peer) powered other good
    rw [State.suppressSync_of_idle ((congrArg Transfer.jobs transfer).trans idle)] at next
    have gap := ((s.advance t).heardFrom x (.snap p)).restartGap_gapOnly x p.peer
    exact ⟨_, ⟨heard.toRegionsKept.trans gap.toRegionsKept, gap.transfer.trans transfer, gap.host.trans heard.host,
      gap.budget.trans heard.budget, fun y => (gap.responder y).trans (heard.isResponder y)⟩, next⟩

/-- Part 0 of a refresh opens a refresh reception (R81). -/
theorem refreshPartZero_follows {t : Time} {x : Station} {p : PartField} {s : State} (powered : s.powered = true)
    (other : s.isSelf x = false) (good : p.goodForm = true) (zero : p.part = 0) (self : s.isSelf p.peer = true)
    (closed : s.transfer.reception = none) (idle : s.transfer.jobs = []) (member : s.station = .member)
    (head : s.transfer.repairList.head? = some p.region) (out : s.transfer.repairStage ≠ .idle) :
    ∃ s', exec (.refreshDataArrival t x p) s = .next s' ∧ s'.replicas = s.replicas ∧
      s'.transfer = { s.transfer with
        reception := some (receptionOf p x .refresh (max s.now t)), repairList := s.transfer.repairList.filter (fun q => q != p.region),
        repairStage := .idle, refreshTimer := none } := by
  obtain ⟨g, found, next⟩ := part_found (t := t) .refresh powered other good idle
  rw [receivePart_of_openRefresh ((congrArg Transfer.reception found.transfer).trans closed) zero] at next
  have member' : g.station = .member := found.station.trans member
  obtain ⟨regions, opens⟩ := State.openRefresh_opens (s := g) (x := x) (p := p) member' ((found.isSelf p.peer).trans self)
    ((congrArg (fun y => y.repairList.head?) found.transfer).trans head)
    (fun none => out ((congrArg Transfer.repairStage found.transfer).symm.trans none))
  have kept := State.concludeFrom_commandOnly (s := g.openRefresh x p) (before := s.advance t)
    (fun leaving => nomatch (regions.station.trans member').symm.trans leaving) (.inl le_rfl)
  refine ⟨_, next, kept.replicas.trans (regions.replicas.trans found.replicas), ?_⟩
  rw [kept.transfer, opens, found.transfer, found.now]
  rfl

/-- Part 0 of a snapshot opens a snapshot reception (R82). -/
theorem snapPartZero_follows {t : Time} {x : Station} {p : PartField} {s : State} (powered : s.powered = true)
    (other : s.isSelf x = false) (good : p.goodForm = true) (zero : p.part = 0) (self : s.isSelf p.peer = true)
    (closed : s.transfer.reception = none) (idle : s.transfer.jobs = []) (joining : s.station = .joining)
    (responder : s.isResponder x = true) (known : (s.entry p.region).state ≠ .unknown)
    (unsynced : (s.replica p.region).condition = .unsynced) :
    ∃ s', exec (.snapArrival t x p) s = .next s' ∧ s'.replicas = s.replicas ∧
      s'.transfer = { s.transfer with reception := some (receptionOf p x .snap (max s.now t)) } := by
  obtain ⟨g, found, next⟩ := part_found (t := t) .snap powered other good idle
  rw [receivePart_of_openSnap ((congrArg Transfer.reception found.transfer).trans closed) zero,
    State.openSnap_opens (found.station.trans joining) ((found.isSelf p.peer).trans self)
      ((found.responder x).trans responder)
      (fun none => known ((congrArg Entry.state (found.entry p.region)).symm.trans none))
      ((congrArg Replica.condition (State.replica_congr found.replicas p.region)).trans unsynced)] at next
  have kept := State.concludeFrom_commandOnly (s := g.withTransfer fun y => { y with reception := some (receptionOf p x .snap g.now) })
    (before := s.advance t) (fun leaving => nomatch (found.station.trans joining).symm.trans leaving) (.inl le_rfl)
  refine ⟨_, next, kept.replicas.trans found.replicas, ?_⟩
  rw [kept.transfer]
  show { g.transfer with reception := some (receptionOf p x .snap g.now) } = _
  rw [found.transfer, found.now]
  rfl

/-- Settles O43. -/
theorem partZeroOpensAReception : Obligations.PartZeroOpensAReception := by
  intro t x p s powered other good zero self closed idle
  refine ⟨fun member head out => ?_, fun joining responder known unsynced => ?_⟩
  · obtain ⟨s', next, replicas, transfer⟩ := refreshPartZero_follows (t := t) powered other good zero self closed idle member head out
    exact ⟨s', next, congrArg Transfer.reception transfer, congrArg Transfer.repairList transfer, congrArg Transfer.repairStage transfer,
      congrArg Transfer.refreshTimer transfer, replicas⟩
  · obtain ⟨s', next, replicas, transfer⟩ :=
      snapPartZero_follows (t := t) powered other good zero self closed idle joining responder known unsynced
    have list : s'.transfer.repairList = s.transfer.repairList := by rw [transfer]
    exact ⟨s', next, congrArg Transfer.reception transfer, list, replicas⟩

end Sys2Proof.Machine
end

section
/-! PROOF. The parts of an open reception: kept, installed with the catch-up, or abandoned (R83, R84, R86 to R88, R136). -/

-- One declaration at a time: side by side, the case splits of these proofs want more threads than the memory limit allows.
set_option Elab.async false

namespace Sys2Proof.Machine

/-! ## What writes one region's replica (R86, R87) -/

/-- `t` is `s` but for the replica of region `r`, its place in the repair list and the change set. -/
structure Replayed (r : Region) (s t : State) : Prop extends TransferOnly s t where
  others : ∀ q, q ≠ r → t.replica q = s.replica q
  reception : t.transfer.reception = s.transfer.reception
  told : s.host.changeSet ⊆ t.host.changeSet

namespace Replayed

variable {r : Region} {s t u : State}

theorem refl (s : State) : Replayed r s s := ⟨.refl s, fun _ _ => rfl, rfl, List.Subset.refl _⟩

theorem trans (h : Replayed r s t) (g : Replayed r t u) : Replayed r s u :=
  ⟨h.toTransferOnly.trans g.toTransferOnly, fun q ne => (g.others q ne).trans (h.others q ne), g.reception.trans h.reception,
    fun _ mem => g.told (h.told mem)⟩

/-- A catch-up entry is applied (R87). -/
theorem write (s : State) (rep : Replica) : Replayed r s ((s.setReplica r rep).addChange r) :=
  ⟨⟨rfl, rfl, rfl, rfl, rfl, rfl, rfl, rfl, rfl⟩, fun _ ne => State.replica_setReplica_ne s rep ne, rfl,
    fun _ mem => mem_insertAscending.2 (.inr mem)⟩

/-- A gap ends the catch-up (R87). -/
theorem versionGap (current : (s.replica r).condition = .current) : Replayed r s (s.versionGap r) := by
  have kept := State.versionGap_commandOnly current
  refine ⟨State.versionGap_transferOnly s r, fun q ne => (kept.replica q).trans ((State.replica_outdated q).trans (if_neg ne)), ?_,
    fun q mem => ?_⟩
  · rw [kept.transfer]
    rfl
  · rw [kept.changeSet]
    exact mem_insertAscending.2 (.inr mem)

end Replayed

/-! ## The catch-up (R87) -/

section CatchUp

variable {r : Region} {v : Version} {s : State}

/-- Whatever the catch-up list holds, its replay writes the one replica alone. -/
theorem State.replayCatchUp_replayed (es : List CatchUp) (current : (s.replica r).condition = .current) :
    Replayed r s (s.replayCatchUp r v es) := by
  induction es generalizing s with
  | nil => exact .refl s
  | cons e rest ih =>
    unfold State.replayCatchUp
    split
    · exact ih current
    · split
      · refine (Replayed.write s _).trans (ih ?_)
        show (State.replica (s.setReplica r _) r).condition = _
        rw [State.replica_setReplica_self]
        exact current
      · exact .versionGap current

/-- Entries that are not after the installed version are skipped. -/
theorem State.replayCatchUp_skip {before : List CatchUp} (old : ∀ e, e ∈ before → versionAfter e.update.version v = false)
    (rest : List CatchUp) : s.replayCatchUp r v (before ++ rest) = s.replayCatchUp r v rest := by
  induction before with
  | nil => rfl
  | cons e before ih =>
    have skip : (!versionAfter e.update.version v) = true := by rw [old e List.mem_cons_self]; rfl
    rw [List.cons_append, State.replayCatchUp, if_pos skip]
    exact ih fun e mem => old e (List.mem_cons_of_mem _ mem)

/-- The version `n` steps after `v` is after it (00, Versions). -/
theorem versionAfter_add {n : Nat} (some : 1 ≤ n) (few : n ≤ 32767) : versionAfter (v + BitVec.ofNat 16 n) v = true := by
  have less : (v + BitVec.ofNat 16 n - v).toNat = n := by
    rw [add_sub_cancel_left, BitVec.toNat_ofNat]
    omega
  simp only [versionAfter, less, Bool.and_eq_true, decide_eq_true_eq]
  exact ⟨some, few⟩

/-- Entries that follow one another are applied. -/
theorem State.replayCatchUp_follow {follow : List CatchUp} {n : Nat} (few : n + follow.length ≤ 32767)
    (version : (s.replica r).version = v + BitVec.ofNat 16 n)
    (next : ∀ i e, follow[i]? = some e → e.update.version = v + BitVec.ofNat 16 (n + i + 1)) (rest : List CatchUp) :
    ∃ u, s.replayCatchUp r v (follow ++ rest) = u.replayCatchUp r v rest ∧ Replayed r s u ∧
      u.host.counters = s.host.counters ∧ u.replica r = follow.foldl (fun rep e => rep.applied e.update) (s.replica r) ∧
      (u.replica r).version = v + BitVec.ofNat 16 (n + follow.length) := by
  induction follow generalizing s n with
  | nil => exact ⟨s, rfl, .refl s, rfl, rfl, version⟩
  | cons e follow ih =>
    have here : e.update.version = v + BitVec.ofNat 16 (n + 1) := next 0 e rfl
    rw [List.length_cons] at few
    have after : ¬ (!versionAfter e.update.version v) = true := by
      rw [here, versionAfter_add (by omega) (by omega)]
      exact Bool.false_ne_true
    have follows : e.update.version = nextVersion (s.replica r).version := by
      rw [here, version, nextVersion, BitVec.ofNat_add, ← BitVec.add_assoc]
      rfl
    let w := (s.setReplica r ((s.replica r).applied e.update)).addChange r
    have written : w.replica r = (s.replica r).applied e.update := State.replica_setReplica_self s r _
    obtain ⟨u, replay, kept, counters, applied, reached⟩ := ih (s := w) (n := n + 1) (by omega)
      (by rw [written]; exact here) (fun i e at_ => by
        rw [next (i + 1) e at_]
        congr 2
        omega)
    refine ⟨u, ?_, (Replayed.write s _).trans kept, counters, by rw [applied, written, List.foldl_cons], by
      rw [reached, List.length_cons]
      congr 2
      omega⟩
    rw [List.cons_append, State.replayCatchUp, if_neg after, if_pos follows]
    exact replay

end CatchUp

/-! ## The installation (R86) -/

/-- The replica that a completed reception installs (R86). -/
def installedReplica (rec : Reception) (content : Memory) : Replica :=
  { condition := .current, version := rec.version, content := content, attempts := 0 }

/-- The state after the installation of a completed reception (R86). -/
structure Installed (rec : Reception) (content : Memory) (s t : State) : Prop extends TransferOnly s t where
  others : ∀ q, q ≠ rec.region → t.replica q = s.replica q
  replica : t.replica rec.region = installedReplica rec content
  reception : t.transfer.reception = none
  counters : t.host.counters = s.host.counters
  told : rec.region ∈ t.host.changeSet

theorem State.install_installed (s : State) (rec : Reception) (content : Memory) : Installed rec content s (s.install rec content) := by
  have written (v : State) (form : v = (s.withTransfer fun x => { x with reception := none }).setReplica rec.region
      { s.replica rec.region with content := content, version := rec.version, attempts := 0 }) :
      TransferOnly s v ∧ v.transfer.reception = none ∧ v.host = s.host ∧ (∀ q, q ≠ rec.region → v.replica q = s.replica q) ∧
        v.replica rec.region =
          { s.replica rec.region with content := content, version := rec.version, attempts := 0 } := by
    subst form
    exact ⟨⟨rfl, rfl, rfl, rfl, rfl, rfl, rfl, rfl, rfl⟩, rfl, rfl, fun q ne => State.replica_setReplica_ne _ _ ne,
      State.replica_setReplica_self _ _ _⟩
  have form : s.install rec content = ((((s.withTransfer fun x => { x with reception := none }).setReplica rec.region
    { s.replica rec.region with content := content, version := rec.version, attempts := 0 }).changeCondition rec.region
      .current).addChange rec.region) := rfl
  rw [form]
  generalize is : (s.withTransfer fun x => { x with reception := none }).setReplica rec.region
    { s.replica rec.region with content := content, version := rec.version, attempts := 0 } = u
  obtain ⟨only, closed, host, others, replica⟩ := written u is.symm
  have counters : u.host.counters = s.host.counters := congrArg HostLink.counters host
  by_cases current : (u.replica rec.region).condition = .current
  · rw [State.changeCondition_same current]
    refine ⟨only.trans (State.addChange_lineOnly u _).transferOnly, others, ?_, closed, counters,
      mem_insertAscending_self _ _⟩
    refine Eq.trans (b := u.replica rec.region) rfl ?_
    rw [replica] at current ⊢
    exact congrArg (fun c => Replica.mk c rec.version content 0) current
  · have entered (q : Region) := State.replica_recondition u rec.region q .current
    have kept : TransferOnly u (u.recondition rec.region .current) := ⟨rfl, rfl, rfl, rfl, rfl, rfl, rfl, rfl, rfl⟩
    rw [State.changeCondition_of_not_current current current]
    refine ⟨(only.trans kept).trans (((State.addChange_lineOnly _ _).trans (State.addChange_lineOnly _ _)).transferOnly),
      fun q ne => (entered q).trans ((if_neg ne).trans (others q ne)), ?_, closed, counters,
      mem_insertAscending_self _ _⟩
    refine (entered rec.region).trans ((if_pos rfl).trans ?_)
    rw [replica]
    rfl

/-! ## A part at the open record (R83, R84, R88) -/

section Part

variable {s : State} {rec : Reception} {x : Station} {p : PartField}

/-- The part is for the open reception, from its source (R83). -/
structure State.Fitting (s : State) (rec : Reception) (x : Station) (p : PartField) : Prop where
  opened : s.transfer.reception = some rec
  region : rec.region = p.region
  self : s.isSelf p.peer = true
  source : rec.source = x
  heeds : s.heeds rec.kind x = true

/-- The reception after an accepted part other than part 7 (R83, R84). -/
def acceptedPart (rec : Reception) (p : PartField) (now : Time) : Reception :=
  { rec with buffer := writeBytes rec.buffer (32 * p.part.val) p.data, next := rec.next + 1, deadline := now + 2000000 }

theorem State.Fitting.partReceived (fits : s.Fitting rec x p) : s.partReceived rec.kind x p =
    if p.part.val = rec.next ∧ rec.version = p.version then
      (if p.part = 7 then (s.install rec (writeBytes rec.buffer (32 * p.part.val) p.data), rec.catchUp)
      else (s.withTransfer fun y => { y with reception := some (acceptedPart rec p s.now) }, []))
    else (s.abandonReception, []) := by
  obtain ⟨opened, region, self, source, heeds⟩ := fits
  simp only [State.partReceived, opened, heeds, State.partAtOpen, if_true, Bool.and_eq_true, decide_eq_true_eq]
  rw [if_pos ⟨⟨⟨trivial, region⟩, self⟩, source⟩]
  rfl

theorem State.Fitting.accepts (fits : s.Fitting rec x p) (next : p.part.val = rec.next) (version : p.version = rec.version)
    (more : p.part ≠ 7) :
    let d := s.withTransfer fun y => { y with reception := some (acceptedPart rec p s.now) }
    s.receivePart rec.kind x p = (d, d.outOfStep) := by
  simp only [State.receivePart, fits.partReceived, next, version, and_self, if_true, more, if_false, State.replayCatchUp]

theorem State.Fitting.completes (fits : s.Fitting rec x p) (next : p.part.val = rec.next) (version : p.version = rec.version)
    (last : p.part = 7) :
    let d := s.install rec (writeBytes rec.buffer (32 * p.part.val) p.data)
    s.receivePart rec.kind x p = (State.replayCatchUp rec.region rec.version d rec.catchUp, d.outOfStep) := by
  have due : p.part.val = rec.next ∧ rec.version = p.version := ⟨next, version.symm⟩
  rw [State.receivePart, fits.partReceived, if_pos due, if_pos last, ← fits.region, version]

theorem State.Fitting.abandons (fits : s.Fitting rec x p) (wrong : p.part.val ≠ rec.next ∨ p.version ≠ rec.version) :
    s.receivePart rec.kind x p = (s.abandonReception, s.abandonReception.outOfStep) := by
  have undue : ¬ (p.part.val = rec.next ∧ rec.version = p.version) := fun due => wrong.elim (· due.1) (· due.2.symm)
  simp only [State.receivePart, fits.partReceived, if_neg undue, State.replayCatchUp]

end Part

theorem State.abandonReception_of_open {s : State} {rec : Reception} (opened : s.transfer.reception = some rec) :
    RegionsKept s s.abandonReception ∧ s.abandonReception.transfer.reception = none ∧
      s.abandonReception.host.counters =
        { s.host.counters with transfersAbandoned := raiseCounter s.host.counters.transfersAbandoned } ∧
      (rec.kind = .refresh → s.abandonReception.transfer.repairList = s.transfer.repairList ++ [rec.region]) := by
  simp only [State.abandonReception, opened]
  cases rec.kind with
  | refresh => exact ⟨⟨⟨rfl, rfl, rfl, rfl, rfl, rfl⟩, rfl⟩, rfl, rfl, fun _ => rfl⟩
  | snap => exact ⟨⟨⟨rfl, rfl, rfl, rfl, rfl, rfl⟩, rfl⟩, rfl, rfl, fun no => nomatch no⟩

/-! ## The arrival (R83 to R88) -/

section Arrival

variable {t : Time} {x : Station} {p : PartField} {rec : Reception} {s : State}

/-- Another station's part of the open reception, at an instant at which no resync can be requested. -/
structure PartAtOpen (t : Time) (x : Station) (p : PartField) (rec : Reception) (s : State) : Prop where
  powered : s.powered = true
  other : s.isSelf x = false
  good : p.goodForm = true
  self : s.isSelf p.peer = true
  opened : s.transfer.reception = some rec
  region : rec.region = p.region
  source : rec.source = x
  idle : s.transfer.jobs = []
  stays : s.station ≠ .leaving
  few : s.outOfStep < 15
  responder : rec.kind = .snap → s.isResponder x = true

theorem PartAtOpen.found (h : PartAtOpen t x p rec s) :
    ∃ g, PartFound (s.advance t) g ∧ g.Fitting rec x p ∧ exec (partRow rec.kind t x p) s =
      .next ((g.receivePart rec.kind x p).1.concludeFrom (s.advance t) (g.receivePart rec.kind x p).2) := by
  obtain ⟨g, found, next⟩ := part_found (t := t) rec.kind h.powered h.other h.good h.idle
  refine ⟨g, found, ⟨(congrArg Transfer.reception found.transfer).trans h.opened, h.region, (found.isSelf p.peer).trans h.self,
    h.source, ?_⟩, next⟩
  cases kind : rec.kind with
  | refresh => rfl
  | snap => exact (found.responder x).trans (h.responder kind)

/-- The next part but the last is kept (R83, R84). -/
theorem PartAtOpen.accepted (h : PartAtOpen t x p rec s) (next : p.part.val = rec.next) (version : p.version = rec.version)
    (more : p.part ≠ 7) :
    ∃ s', exec (partRow rec.kind t x p) s = .next s' ∧ s'.directory = s.directory ∧ s'.replicas = s.replicas ∧
      s'.transfer.reception = some (acceptedPart rec p (max s.now t)) := by
  obtain ⟨g, found, fits, row⟩ := h.found
  rw [fits.accepts next version more] at row
  have kept := State.concludeFrom_commandOnly (s := g.withTransfer fun y => { y with reception := some (acceptedPart rec p g.now) })
    (before := s.advance t) (fun leaving => absurd (found.station.symm.trans leaving) h.stays) (.inl le_rfl)
  refine ⟨_, row, kept.directory.trans found.directory, kept.replicas.trans found.replicas, ?_⟩
  rw [kept.transfer]
  exact congrArg (fun n => some (acceptedPart rec p n)) found.now

/-- A part out of order abandons the reception (R88). -/
theorem PartAtOpen.abandoned (h : PartAtOpen t x p rec s) (wrong : p.part.val ≠ rec.next ∨ p.version ≠ rec.version) :
    ∃ s', exec (partRow rec.kind t x p) s = .next s' ∧ s'.directory = s.directory ∧ s'.replicas = s.replicas ∧
      s'.transfer.reception = none ∧
      s'.host.counters = { s.host.counters with transfersAbandoned := raiseCounter s.host.counters.transfersAbandoned } ∧
      (rec.kind = .refresh → s'.transfer.repairList = s.transfer.repairList ++ [p.region]) := by
  obtain ⟨g, found, fits, row⟩ := h.found
  obtain ⟨regions, closed, counters, list⟩ := State.abandonReception_of_open fits.opened
  rw [fits.abandons wrong] at row
  have kept := State.concludeFrom_commandOnly (s := g.abandonReception) (before := s.advance t)
    (fun leaving => absurd ((regions.station.trans found.station).symm.trans leaving) h.stays) (.inl le_rfl)
  refine ⟨_, row, kept.directory.trans (regions.directory.trans found.directory),
    kept.replicas.trans (regions.replicas.trans found.replicas), ?_, ?_, fun refresh => ?_⟩
  · rw [kept.transfer]
    exact closed
  · rw [kept.counters, counters, found.host]
    rfl
  · rw [kept.transfer, list refresh, found.transfer, h.region]
    rfl

/-- Part 7 installs the buffer and replays the catch-up list (R86, R87). -/
theorem PartAtOpen.completed (h : PartAtOpen t x p rec s) (next : p.part.val = rec.next) (version : p.version = rec.version)
    (last : p.part = 7) :
    ∃ g d s', exec (partRow rec.kind t x p) s = .next s' ∧ g.host = s.host ∧ RegionsKept (s.advance t) g ∧
      Installed rec (writeBytes rec.buffer (32 * p.part.val) p.data) g d ∧
      CommandOnly (State.replayCatchUp rec.region rec.version d rec.catchUp) s' := by
  obtain ⟨g, found, fits, row⟩ := h.found
  rw [fits.completes next version last] at row
  have installed := g.install_installed rec (writeBytes rec.buffer (32 * p.part.val) p.data)
  generalize g.install rec (writeBytes rec.buffer (32 * p.part.val) p.data) = d at row installed
  have replayed : Replayed rec.region d (State.replayCatchUp rec.region rec.version d rec.catchUp) :=
    State.replayCatchUp_replayed _ (congrArg Replica.condition installed.replica)
  refine ⟨g, d, _, row, found.host, found.toRegionsKept, installed, State.concludeFrom_commandOnly (fun leaving => ?_) (.inr ?_)⟩
  · exact absurd (((replayed.station.trans installed.station).trans found.station).symm.trans leaving) h.stays
  · have few := State.outOfStep_le_succ (s := s) (t := State.replayCatchUp rec.region rec.version d rec.catchUp) (r := rec.region)
      fun q ne behind => by
        rwa [State.behind_of_condition (congrArg Replica.condition
          ((replayed.others q ne).trans ((installed.others q ne).trans (State.replica_congr found.replicas q))))] at behind
    have below := h.few
    omega

end Arrival

theorem foldl_applied_condition (es : List CatchUp) (rep : Replica) :
    (es.foldl (fun rep e => rep.applied e.update) rep).condition = rep.condition := by
  induction es generalizing rep with
  | nil => rfl
  | cons e rest ih => exact ih _

/-- The catch-up after an installation, by the parts of the catch-up list (R87). -/
theorem Installed.caughtUp {rec : Reception} {content : Memory} {s d s' : State} (installed : Installed rec content s d)
    (kept : CommandOnly (State.replayCatchUp rec.region rec.version d rec.catchUp) s') {before follow after : List CatchUp}
    (list : rec.catchUp = before ++ follow ++ after) (few : rec.catchUp.length ≤ 16)
    (old : ∀ e, e ∈ before → versionAfter e.update.version rec.version = false)
    (next : ∀ i e, follow[i]? = some e → e.update.version = rec.version + BitVec.ofNat 16 (i + 1)) :
    let caughtUp := follow.foldl (fun rep e => rep.applied e.update) (installedReplica rec content)
    (after = [] → s'.replica rec.region = caughtUp ∧ s'.host.counters = s.host.counters) ∧
      ∀ e more, after = e :: more → versionAfter e.update.version rec.version = true →
        e.update.version ≠ rec.version + BitVec.ofNat 16 (follow.length + 1) →
        s'.replica rec.region = { caughtUp with condition := .stale } ∧
          s'.host.counters = { s.host.counters with versionGaps := raiseCounter s.host.counters.versionGaps } := by
  have few' : follow.length ≤ 16 := by
    rw [list] at few
    simp only [List.length_append] at few
    omega
  obtain ⟨u, replay, -, counters, applied, reached⟩ := State.replayCatchUp_follow (s := d) (r := rec.region) (v := rec.version)
    (follow := follow) (n := 0) (by omega) (by rw [installed.replica]; simp [installedReplica])
    (fun i e at_ => by rw [next i e at_, Nat.zero_add]) after
  rw [installed.replica] at applied
  rw [list, List.append_assoc, State.replayCatchUp_skip old, replay] at kept
  refine ⟨fun none => ?_, fun e more is after_ gap => ?_⟩
  · subst none
    exact ⟨(kept.replica _).trans applied, kept.counters.trans (counters.trans installed.counters)⟩
  · subst is
    have skips : ¬ (!versionAfter e.update.version rec.version) = true := by rw [after_]; exact Bool.false_ne_true
    have apart : ¬ e.update.version = nextVersion (u.replica rec.region).version := by
      rw [reached, Nat.zero_add, nextVersion, BitVec.add_assoc]
      rwa [BitVec.ofNat_add] at gap
    have current : (u.replica rec.region).condition = .current := by
      rw [applied, foldl_applied_condition]
      rfl
    rw [State.replayCatchUp, if_neg skips, if_neg apart] at kept
    have stale := (State.versionGap_commandOnly current).trans kept
    refine ⟨(stale.replica _).trans ((State.replica_outdated _).trans ((if_pos rfl).trans (by rw [applied]))), ?_⟩
    have outdated : (u.outdated rec.region).host.counters = s.host.counters := counters.trans installed.counters
    rw [stale.counters, ← outdated]
    rfl

/-- A SNAP part from a station that is not the responder is ignored (R136). -/
theorem State.receivePart_of_stranger {s : State} {x : Station} (stranger : s.isResponder x = false) (p : PartField) :
    s.receivePart .snap x p = (s, s.outOfStep) := by
  have received : s.partReceived .snap x p = (s, []) := by
    unfold State.partReceived
    split
    · rw [if_neg (by simp [State.heeds, stranger])]
    · have shut : s.openSnap x p = s := if_neg fun asked => by
        simp only [Bool.and_eq_true] at asked
        obtain ⟨⟨⟨-, responder⟩, -⟩, -⟩ := asked
        exact Bool.false_ne_true (stranger.symm.trans responder)
      rw [shut]
      exact ite_self _
  simp only [State.receivePart, received, State.replayCatchUp]

theorem snapIgnored_follows {t : Time} {x : Station} {p : PartField} {s : State} (powered : s.powered = true)
    (other : s.isSelf x = false) (good : p.goodForm = true) (joining : s.station = .joining) (stranger : s.isResponder x = false)
    (idle : s.transfer.jobs = []) :
    ∃ s', exec (.snapArrival t x p) s = .next s' ∧ s'.transfer = s.transfer ∧ s'.replicas = s.replicas ∧ s'.host = s.host := by
  obtain ⟨g, found, next⟩ := part_found (t := t) .snap powered other good idle
  have same : g.outOfStep = (s.advance t).outOfStep := by
    simp only [State.outOfStep, State.staleCount, State.lostCount, State.replica_congr found.replicas]
  rw [State.receivePart_of_stranger ((found.responder x).trans stranger)] at next
  refine ⟨_, next, ?_⟩
  show (g.concludeFrom (s.advance t) g.outOfStep).transfer = _ ∧ _
  rw [same, ← State.conclude, State.conclude_of_views (State.inStep_of_replicas found.replicas) found.directory found.budget
    (fun leaving => nomatch (found.station.trans joining).symm.trans leaving)]
  exact ⟨found.transfer, found.replicas, found.host⟩

/-- Settles O44. -/
theorem partsFillTheReception : Obligations.PartsFillTheReception := by
  refine ⟨fun t x p rec s powered other good self opened region source idle stays few snap => ?_,
    fun t x p s powered other good joining stranger idle => snapIgnored_follows powered other good joining stranger idle⟩
  have open_ : PartAtOpen t x p rec s :=
    ⟨powered, other, good, self, opened, region, source, idle, stays, few, fun kind => (snap kind).2⟩
  have row : exec (match rec.kind with
      | .refresh => .refreshDataArrival t x p
      | .snap => .snapArrival t x p) s = exec (partRow rec.kind t x p) s := by cases rec.kind <;> rfl
  intro c buffer installed
  by_cases due : p.part.val = rec.next ∧ p.version = rec.version
  · have right : ¬ (p.part.val ≠ rec.next ∨ p.version ≠ rec.version) := fun wrong => wrong.elim (· due.1) (· due.2)
    by_cases last : p.part = 7
    · obtain ⟨g, d, s', next, host, regions, installs, kept⟩ := open_.completed due.1 due.2 last
      have replayed : Replayed rec.region d (State.replayCatchUp rec.region rec.version d rec.catchUp) :=
        State.replayCatchUp_replayed _ (congrArg Replica.condition installs.replica)
      refine ⟨s', row.trans next, fun q ne => ?_, ?_, fun _ _ more => absurd last more, fun _ _ _ => ⟨?_, ?_, ?_⟩,
        fun wrong => absurd wrong right⟩
      · have ne' : q ≠ rec.region := fun is => ne (is.trans region)
        exact (kept.replica q).trans ((replayed.others q ne').trans ((installs.others q ne').trans
          (State.replica_congr regions.replicas q)))
      · exact kept.directory.trans (replayed.directory.trans (installs.directory.trans regions.directory))
      · rw [kept.transfer, replayed.reception]
        exact installs.reception
      · rw [kept.changeSet, ← region]
        exact replayed.told installs.told
      · intro before follow after list short old follows
        have caught := installs.caughtUp kept list short old follows
        rw [host, region] at caught
        exact caught
    · obtain ⟨s', next, directory, replicas, reception⟩ := open_.accepted due.1 due.2 last
      exact ⟨s', row.trans next, fun q _ => State.replica_congr replicas q, directory, fun _ _ _ => ⟨reception, replicas⟩,
        fun _ _ is => absurd is last, fun wrong => absurd wrong right⟩
  · have wrong : p.part.val ≠ rec.next ∨ p.version ≠ rec.version := not_and_or.1 due
    obtain ⟨s', next, directory, replicas, closed, counters, list⟩ := open_.abandoned wrong
    exact ⟨s', row.trans next, fun q _ => State.replica_congr replicas q, directory, fun a b _ => absurd ⟨a, b⟩ due,
      fun a b _ => absurd ⟨a, b⟩ due, fun _ => ⟨closed, replicas, counters, list⟩⟩

end Sys2Proof.Machine
end

section
/-! PROOF. The echoes of the transfer jobs' frames (R77 to R79, R127 to R129). -/

-- One declaration at a time: side by side, the case splits of these proofs want more threads than the memory limit allows.
set_option Elab.async false

namespace Sys2Proof.Machine

/-! ## What a job's echo leaves (R77 to R79, R127 to R129) -/

section Leaves

variable (s : State)

theorem State.mapPlace_heard (f : Job → Job) (i : Item) : Heard s ((s.mapJobs f).place .reply i) :=
  Heard.trans (s := s.mapJobs f) ⟨⟨⟨rfl, rfl, rfl, rfl, rfl, rfl⟩, rfl⟩, rfl, rfl, rfl, rfl, rfl, rfl⟩
    (.of_replyOnly (ReplyOnly.refl _).place)

theorem State.endJobs_heard (p : Job → Bool) : Heard s (s.endJobs p) :=
  Heard.trans (s := s.removeJobs p) ⟨⟨⟨rfl, rfl, rfl, rfl, rfl, rfl⟩, rfl⟩, rfl, rfl, rfl, rfl, rfl, rfl⟩ (State.serveNext_heard _)

theorem State.refreshPartEchoed_heard (f : PartField) : Heard s (s.refreshPartEchoed f) :=
  ((s.endJobs_heard _).ite (s.mapPlace_heard _ _)).ite (.refl s)

theorem State.syncGoOn_heard (j : Station) (n : Nat) : Heard s (s.syncGoOn j n) := by
  unfold State.syncGoOn
  split <;> exact s.mapPlace_heard _ _

theorem State.afterRegion_heard (j : Station) (n : Nat) : Heard s (s.afterRegion j n) := by
  have paused (f : Job → Job) : Heard s (s.mapJobs f) := ⟨⟨⟨rfl, rfl, rfl, rfl, rfl, rfl⟩, rfl⟩, rfl, rfl, rfl, rfl, rfl, rfl⟩
  unfold State.afterRegion
  split
  · exact (paused _).trans (State.mapPlace_heard _ _ _)
  · exact s.syncGoOn_heard j n

theorem State.snapPartEchoed_heard (f : PartField) : Heard s (s.snapPartEchoed f) :=
  ((s.afterRegion_heard _ _).ite (s.mapPlace_heard _ _)).ite (.refl s)

theorem State.dirEchoed_heard (j : Station) (g : Group) : Heard s (s.dirEchoed j g) :=
  ((s.syncGoOn_heard _ _).ite (s.mapPlace_heard _ _)).ite (.refl s)

theorem State.syncEndEchoed_heard (j : Station) : Heard s (s.syncEndEchoed j) := (s.endJobs_heard _).ite (.refl s)

end Leaves

/-! ## The next frame of a job (R77, R128, R129) -/

section Next

variable {s : State} {f : PartField} {b : TransferBuffer} {i : Item}

/-- A job's stage moves on with its next frame at the tail of the reply queue. -/
theorem State.mapPlace (g : Job → Job) (free : s.replyFree) (other : ∀ r, i ≠ .claim r none) :
    ((s.mapJobs g).place .reply i).transfer.jobs = s.transfer.jobs.map g ∧
      ((s.mapJobs g).place .reply i).liu.reply = s.liu.reply ++ [{ item := i, marked := false }] := by
  rw [State.place_reply (s := s.mapJobs g) free other]
  exact ⟨rfl, rfl⟩

/-- The next part of the transfer, from the transfer buffer (R77). -/
def nextPart (f : PartField) (b : TransferBuffer) : PartField :=
  { f with version := b.version, part := f.part + 1, data := readBytes b.content (32 * (f.part + 1).val) 32 }

theorem State.bufferPart_of_some (filled : s.transfer.buffer = some b) : s.bufferPart f (f.part + 1) = nextPart f b := by
  simp only [State.bufferPart, filled, Option.elim]
  rfl

theorem State.refreshPartEchoed_next (only : s.transfer.jobs = [.refresh f.region f.peer (.at f.part)]) (more : f.part ≠ 7)
    (filled : s.transfer.buffer = some b) (free : s.replyFree) :
    (s.refreshPartEchoed f).transfer.jobs = [.refresh f.region f.peer (.at (f.part + 1))] ∧
      (s.refreshPartEchoed f).liu.reply = s.liu.reply ++ [{ item := .part .refresh (nextPart f b), marked := false }] := by
  have form : s.refreshPartEchoed f = (s.mapJobs (Job.setRefreshStage f.region f.peer (.at (f.part + 1)))).place .reply
      (.part .refresh (nextPart f b)) := by
    rw [State.refreshPartEchoed, if_pos (by simp [only]), if_neg more, State.bufferPart_of_some filled]
  obtain ⟨jobs, placed⟩ := State.mapPlace (i := .part .refresh (nextPart f b))
    (Job.setRefreshStage f.region f.peer (.at (f.part + 1))) free (by exact nofun)
  rw [form]
  exact ⟨jobs.trans (by simp [only, Job.setRefreshStage, Job.isRefresh]), placed⟩

/-- The last job ends (R77, R129). -/
theorem State.endJobs_only {job : Job} {p : Job → Bool} (only : s.transfer.jobs = [job]) (is : p job = true) :
    (s.endJobs p).transfer.jobs = [] ∧ (s.endJobs p).liu.reply = s.liu.reply := by
  have none : (s.removeJobs p).transfer.jobs = [] := by
    show s.transfer.jobs.filter _ = _
    simp [only, is]
  have form : s.endJobs p = s.removeJobs p := by
    rw [State.endJobs, State.serveNext]
    simp [none]
  rw [form]
  exact ⟨none, rfl⟩

theorem State.refreshPartEchoed_last (only : s.transfer.jobs = [.refresh f.region f.peer (.at f.part)]) (last : f.part = 7) :
    (s.refreshPartEchoed f).transfer.jobs = [] ∧ (s.refreshPartEchoed f).liu.reply = s.liu.reply := by
  rw [State.refreshPartEchoed, if_pos (by simp [only]), if_pos last]
  exact State.endJobs_only only (by simp [Job.isRefresh])

theorem State.snapPartEchoed_next (only : s.transfer.jobs = [.sync f.peer (.snapshot f.region f.part)]) (more : f.part ≠ 7)
    (filled : s.transfer.buffer = some b) (free : s.replyFree) :
    (s.snapPartEchoed f).transfer.jobs = [.sync f.peer (.snapshot f.region (f.part + 1))] ∧
      (s.snapPartEchoed f).liu.reply = s.liu.reply ++ [{ item := .part .snap (nextPart f b), marked := false }] := by
  have form : s.snapPartEchoed f = (s.mapJobs (Job.setSyncStage f.peer (.snapshot f.region (f.part + 1)))).place .reply
      (.part .snap (nextPart f b)) := by
    rw [State.snapPartEchoed, if_pos (by simp [only]), if_neg more, State.bufferPart_of_some filled]
  obtain ⟨jobs, placed⟩ := State.mapPlace (i := .part .snap (nextPart f b))
    (Job.setSyncStage f.peer (.snapshot f.region (f.part + 1))) free (by exact nofun)
  rw [form]
  exact ⟨jobs.trans (by simp [only, Job.setSyncStage, Job.isSync]), placed⟩

/-- A sync job alone goes on with a region (R129). -/
theorem State.syncGoOn_region {j : Station} {st : SyncStage} {after : Region} {n : Nat} (only : s.transfer.jobs = [.sync j st])
    (is : after.val = n) (free : s.replyFree) :
    (s.syncGoOn j n).transfer.jobs = [.sync j (.snapshot after 0)] ∧
      (s.syncGoOn j n).liu.reply = s.liu.reply ++ [{ item := .partZero .snap j after, marked := false }] := by
  subst is
  rw [State.syncGoOn, dif_pos after.isLt]
  obtain ⟨jobs, placed⟩ := State.mapPlace (i := .partZero .snap j after) (Job.setSyncStage j (.snapshot after 0)) free
    (by exact nofun)
  exact ⟨jobs.trans (by simp [only, Job.setSyncStage, Job.isSync]), placed⟩

/-- A sync job alone ends with SYNC-END (R129). -/
theorem State.syncGoOn_end {j : Station} {st : SyncStage} (only : s.transfer.jobs = [.sync j st]) (free : s.replyFree) :
    (s.syncGoOn j 64).transfer.jobs = [.sync j .ending] ∧
      (s.syncGoOn j 64).liu.reply = s.liu.reply ++ [{ item := .syncEnd j, marked := false }] := by
  rw [State.syncGoOn, dif_neg (by omega)]
  obtain ⟨jobs, placed⟩ := State.mapPlace (i := .syncEnd j) (Job.setSyncStage j .ending) free (by exact nofun)
  exact ⟨jobs.trans (by simp [only, Job.setSyncStage, Job.isSync]), placed⟩

/-- After its last part a region of a snapshot is followed by the next, where no refresh job waits (R78, R129). -/
theorem State.snapPartEchoed_last (only : s.transfer.jobs = [.sync f.peer (.snapshot f.region 7)]) (last : f.part = 7) :
    s.snapPartEchoed f = s.syncGoOn f.peer (f.region.val + 1) := by
  rw [State.snapPartEchoed, if_pos (by simp [only, last]), if_pos last, State.afterRegion]
  simp [only, Job.isWaitingRefresh]

/-- A waiting refresh job is served before the sync job goes on (R78). -/
theorem State.snapPartEchoed_refresh {r : Region} {q : Station} {more : List Job}
    (jobs : s.transfer.jobs = .sync f.peer (.snapshot f.region 7) :: .refresh r q .waiting :: more) (last : f.part = 7)
    (noRefresh : ∀ job, job ∈ more → job.isRefresh r q = false) (noSync : ∀ job, job ∈ more → job.isSync f.peer = false)
    (free : s.replyFree) :
    (s.snapPartEchoed f).transfer.jobs = .sync f.peer (.paused (f.region.val + 1)) :: .refresh r q (.at 0) :: more ∧
      (s.snapPartEchoed f).liu.reply = s.liu.reply ++ [{ item := .partZero .refresh q r, marked := false }] := by
  have form : s.snapPartEchoed f =
      (s.mapJobs (Job.setSyncStage f.peer (.paused (f.region.val + 1)))).startRefresh r q := by
    have waits : s.transfer.jobs.find? Job.isWaitingRefresh = some (.refresh r q .waiting) := by rw [jobs]; rfl
    rw [State.snapPartEchoed, if_pos (by simp [jobs, last]), if_pos last, State.afterRegion, waits]
  have others : (more.map (Job.setSyncStage f.peer (.paused (f.region.val + 1)))).map (Job.setRefreshStage r q (.at 0)) = more := by
    rw [List.map_map]
    refine (List.map_congr_left fun job mem => ?_).trans (List.map_id _)
    simp [Job.setSyncStage, Job.setRefreshStage, noSync job mem, noRefresh job mem]
  obtain ⟨served, placed⟩ := State.mapPlace (s := s.mapJobs (Job.setSyncStage f.peer (.paused (f.region.val + 1))))
    (i := .partZero .refresh q r) (Job.setRefreshStage r q (.at 0)) free (by exact nofun)
  rw [form, State.startRefresh]
  refine ⟨served.trans ?_, placed⟩
  show (s.transfer.jobs.map _).map _ = _
  rw [jobs, List.map_cons, List.map_cons, List.map_cons, List.map_cons, others]
  simp [Job.setSyncStage, Job.setRefreshStage, Job.isSync, Job.isRefresh]

theorem State.dirEchoed_next {j : Station} {g : Group} (only : s.transfer.jobs = [.sync j (.dir g)]) (more : g ≠ 7)
    (free : s.replyFree) :
    (s.dirEchoed j g).transfer.jobs = [.sync j (.dir (g + 1))] ∧
      (s.dirEchoed j g).liu.reply = s.liu.reply ++ [{ item := .dir j (g + 1), marked := false }] := by
  obtain ⟨jobs, placed⟩ := State.mapPlace (i := .dir j (g + 1)) (Job.setSyncStage j (.dir (g + 1))) free (by exact nofun)
  rw [State.dirEchoed, if_pos (by simp [only]), if_neg more]
  exact ⟨jobs.trans (by simp [only, Job.setSyncStage, Job.isSync]), placed⟩

theorem State.dirEchoed_last {j : Station} {g : Group} (only : s.transfer.jobs = [.sync j (.dir g)]) (last : g = 7) :
    s.dirEchoed j g = s.syncGoOn j 0 := by
  rw [State.dirEchoed, if_pos (by simp [only]), if_pos last]

theorem State.syncEndEchoed_last {j : Station} (only : s.transfer.jobs = [.sync j .ending]) :
    (s.syncEndEchoed j).transfer.jobs = [] ∧ (s.syncEndEchoed j).liu.reply = s.liu.reply := by
  rw [State.syncEndEchoed, if_pos (by simp [only])]
  exact State.endJobs_only only (by simp [Job.isSync])

end Next

/-! ## The echo's row (R72, R77, R79, R127) -/

section Rows

variable {t : Time} {x j : Station} {f : PartField} {g : Group} {es : List DirField} {i : Queued} {rest : List Queued} {s : State}
  {frame : Frame}

/-- The echo of a job's frame at the head of the reply queue. -/
structure JobEcho (x : Station) (frame : Frame) (i : Queued) (rest : List Queued) (s : State) : Prop where
  powered : s.powered = true
  self : s.isSelf x = true
  quiet : s.notResyncing
  waiting : s.liu.replyWaiting = []
  flies : s.inFlight .reply frame i rest

/-- What follows the echo of a job's frame, whose job goes on with `goOn`: the job list and the reply queue are those that it
leaves. -/
def JobGoes (rest : List Queued) (i : Queued) (goOn : State → State) (s : State) (o : Host.Outcome State Fault Refusal) : Prop :=
  ∃ e s' : State, o = .next s' ∧ e.transfer = s.transfer ∧ e.liu.reply = rest ∧ e.liu.replyWaiting = [] ∧
    s'.transfer = (e.jobEchoed i goOn).transfer ∧ s'.liu.reply = (e.jobEchoed i goOn).liu.reply

theorem JobEcho.follows {c : Instr} {goOn gap : State → State} (echo : JobEcho x frame i rest s)
    (row : exec c s = .next ((gap (((s.advance t).echoed x).jobEchoed i goOn)).conclude (s.advance t)))
    (goes : ∀ u, Heard u (goOn u)) (gaps : ∀ u, GapOnly u (gap u)) : JobGoes rest i goOn s (exec c s) := by
  have echoed := State.echoed_echo (s := s.advance t) (x := x) echo.flies
  generalize (s.advance t).echoed x = e at echoed row
  have went : Heard e (e.jobEchoed i goOn) := (Heard.refl e).ite (goes e)
  have gapped := gaps (e.jobEchoed i goOn)
  have regions := (echoed.toRegionsKept.trans went.toRegionsKept).trans gapped.toRegionsKept
  have kept := State.conclude_commandOnly (before := s.advance t) (regions.notResyncing echo.quiet)
    (State.inStep_of_replicas regions.replicas)
  exact ⟨e, _, row, echoed.transfer, echoed.reply, echoed.replyWaiting.trans echo.waiting, kept.transfer.trans gapped.transfer,
    kept.reply.trans (congrArg Liu.reply gapped.liu)⟩

theorem JobEcho.refreshData (echo : JobEcho x (.refreshData f) i rest s) (good : f.goodForm = true) :
    JobGoes rest i (fun s => s.refreshPartEchoed f) s (exec (.refreshDataArrival t x f) s) := by
  have row := partArrival_of_own (t := t) (x := x) (f := .refreshData f) (kind := .refresh) (p := f)
    (echoed := fun x s => s.jobEchoed x fun s => s.refreshPartEchoed f) (suppress := fun s => s.suppressRefresh f) echo.powered
    echo.self good echo.flies
  exact echo.follows (gap := fun u => u) row (fun u => u.refreshPartEchoed_heard f)
    fun u => ⟨.refl u, rfl, rfl, rfl, rfl, rfl, fun _ => rfl⟩

theorem JobEcho.snap (echo : JobEcho x (.snap f) i rest s) (good : f.goodForm = true) :
    JobGoes rest i (fun s => s.snapPartEchoed f) s (exec (.snapArrival t x f) s) := by
  have row := partArrival_of_own (t := t) (x := x) (f := .snap f) (kind := .snap) (p := f)
    (echoed := fun y s => s.syncEchoed y x f.peer fun s => s.snapPartEchoed f)
    (suppress := fun s => (s.suppressSync f.peer).restartGap x f.peer) echo.powered echo.self good echo.flies
  exact echo.follows (gap := fun u => u.restartGap x f.peer) row (fun u => u.snapPartEchoed_heard f)
    fun u => u.restartGap_gapOnly x f.peer

theorem JobEcho.dir (echo : JobEcho x (.dir j g es) i rest s) (good : (Frame.dir j g es).goodForm = true) :
    JobGoes rest i (fun s => s.dirEchoed j g) s (exec (.dirArrival t x j g es) s) :=
  echo.follows (gap := fun u => u.restartGap x j) (arrival_of_own echo.powered echo.self good echo.flies)
    (fun u => u.dirEchoed_heard j g) fun u => u.restartGap_gapOnly x j

theorem JobEcho.syncEnd (echo : JobEcho x (.syncEnd j) i rest s) :
    JobGoes rest i (fun s => s.syncEndEchoed j) s (exec (.syncEndArrival t x j) s) :=
  echo.follows (gap := fun u => u.restartGap x j) (arrival_of_own (f := .syncEnd j) echo.powered echo.self rfl echo.flies)
    (fun u => u.syncEndEchoed_heard j) fun u => u.restartGap_gapOnly x j

/-- The echo of a frame whose job was dropped places nothing (R72, R79, R127). -/
theorem JobGoes.dropped {goOn : State → State} {o : Host.Outcome State Fault Refusal} (goes : JobGoes rest i goOn s o)
    (orphan : i.orphan = true) : ∃ s', o = .next s' ∧ s'.transfer = s.transfer ∧ s'.liu.reply = rest := by
  obtain ⟨e, s', next, transfer, reply, -, jobs, queue⟩ := goes
  have form : e.jobEchoed i goOn = e := if_pos orphan
  rw [form] at jobs queue
  exact ⟨s', next, jobs.trans transfer, queue.trans reply⟩

/-- The echo of a frame whose job stands: the job goes on from a state with its list and with room in the reply queue. -/
theorem JobGoes.goes {goOn : State → State} {o : Host.Outcome State Fault Refusal} (goes : JobGoes rest i goOn s o)
    (stands : i.orphan = false) (room : rest.length < 8) :
    ∃ e s', o = .next s' ∧ e.transfer = s.transfer ∧ e.liu.reply = rest ∧ e.replyFree ∧ s'.transfer = (goOn e).transfer ∧
      s'.liu.reply = (goOn e).liu.reply := by
  obtain ⟨e, s', next, transfer, reply, waiting, jobs, queue⟩ := goes
  have form : e.jobEchoed i goOn = goOn e := if_neg (by rw [stands]; exact Bool.false_ne_true)
  rw [form] at jobs queue
  exact ⟨e, s', next, transfer, reply, ⟨reply ▸ room, waiting⟩, jobs, queue⟩

end Rows

/-- Settles O45. -/
theorem echoesPlaceTheNextPart : Obligations.EchoesPlaceTheNextPart := by
  intro t x f i rest s powered self quiet good stands waiting queue room placed next
  have echo {frame : Frame} (sends : s.liu.transmitter = .sending .reply frame) : JobEcho x frame i rest s :=
    ⟨powered, self, quiet, waiting, sends, queue⟩
  refine ⟨fun sends only => ?_, fun sends => ?_, fun j g es goodDir sends only => ?_, fun j sends only => ?_, fun dropped is => ?_⟩
  · obtain ⟨e, s', row, transfer, reply, free, jobs, queued⟩ := ((echo sends).refreshData (t := t) good).goes stands room
    have only' := (congrArg Transfer.jobs transfer).trans only
    refine ⟨s', row, fun b filled more => ?_, fun last => ?_⟩
    · obtain ⟨after, appended⟩ := State.refreshPartEchoed_next only' more ((congrArg Transfer.buffer transfer).trans filled) free
      exact ⟨queued.trans (appended.trans (congrArg (· ++ _) reply)), (congrArg Transfer.jobs jobs).trans after⟩
    · obtain ⟨after, same⟩ := State.refreshPartEchoed_last only' last
      exact ⟨(congrArg Transfer.jobs jobs).trans after, queued.trans (same.trans reply)⟩
  · obtain ⟨e, s', row, transfer, reply, free, jobs, queued⟩ := ((echo sends).snap (t := t) good).goes stands room
    have only' {js : List Job} (only : s.transfer.jobs = js) := (congrArg Transfer.jobs transfer).trans only
    refine ⟨s', row, fun b filled only more => ?_, fun after only last is => ?_, fun only last is => ?_,
      fun r q more only last small noRefresh noSync => ?_⟩
    · obtain ⟨after, appended⟩ :=
        State.snapPartEchoed_next (only' only) more ((congrArg Transfer.buffer transfer).trans filled) free
      exact ⟨queued.trans (appended.trans (congrArg (· ++ _) reply)), (congrArg Transfer.jobs jobs).trans after⟩
    · rw [State.snapPartEchoed_last (only' only) last] at jobs queued
      obtain ⟨left, appended⟩ := State.syncGoOn_region (only' only) is free
      exact ⟨queued.trans (appended.trans (congrArg (· ++ _) reply)), (congrArg Transfer.jobs jobs).trans left⟩
    · rw [State.snapPartEchoed_last (only' only) last, is] at jobs queued
      obtain ⟨left, appended⟩ := State.syncGoOn_end (only' only) free
      exact ⟨queued.trans (appended.trans (congrArg (· ++ _) reply)), (congrArg Transfer.jobs jobs).trans left⟩
    · obtain ⟨left, appended⟩ := State.snapPartEchoed_refresh (only' only) last noRefresh noSync free
      exact ⟨queued.trans (appended.trans (congrArg (· ++ _) reply)), (congrArg Transfer.jobs jobs).trans left⟩
  · obtain ⟨e, s', row, transfer, reply, free, jobs, queued⟩ := ((echo sends).dir (t := t) goodDir).goes stands room
    have only' := (congrArg Transfer.jobs transfer).trans only
    refine ⟨s', row, fun more => ?_, fun last => ?_⟩
    · obtain ⟨left, appended⟩ := State.dirEchoed_next only' more free
      exact ⟨queued.trans (appended.trans (congrArg (· ++ _) reply)), (congrArg Transfer.jobs jobs).trans left⟩
    · rw [State.dirEchoed_last only' last] at jobs queued
      obtain ⟨left, appended⟩ := State.syncGoOn_region (after := 0) only' rfl free
      exact ⟨queued.trans (appended.trans (congrArg (· ++ _) reply)), (congrArg Transfer.jobs jobs).trans left⟩
  · obtain ⟨e, s', row, transfer, reply, free, jobs, queued⟩ := ((echo sends).syncEnd (t := t)).goes stands room
    obtain ⟨left, same⟩ := State.syncEndEchoed_last ((congrArg Transfer.jobs transfer).trans only)
    exact ⟨s', row, (congrArg Transfer.jobs jobs).trans left, queued.trans (same.trans reply)⟩
  · subst is
    have orphan {frame : Frame} (sends : s.liu.transmitter = .sending .reply frame) :
        JobEcho x frame { i with orphan := true } rest
          { s with liu := { s.liu with reply := { i with orphan := true } :: rest } } :=
      ⟨powered, self, quiet, waiting, sends, rfl⟩
    exact ⟨fun sends => ((orphan sends).refreshData good).dropped rfl, fun sends => ((orphan sends).snap good).dropped rfl,
      fun j g es goodDir sends => ((orphan sends).dir goodDir).dropped rfl, fun j sends => ((orphan sends).syncEnd).dropped rfl⟩

end Sys2Proof.Machine
end

section
/-! PROOF. The frames of a join at the joiner and at the other members: JOIN-REQ, DIR, SNAP and SYNC-END (R122 to R131). -/

-- One declaration at a time: side by side, the case splits of these proofs want more threads than the memory limit allows.
set_option Elab.async false

namespace Sys2Proof.Machine

/-! ## JOIN-REQ at a member (R126) -/

theorem State.syncRequested_heard (s : State) (j : Station) : Heard s (s.syncRequested j) := (s.addJob_heard _).ite (.refl s)

theorem State.syncRequested_lowest {s : State} {j : Station} (participates : s.station.participates = true)
    (idle : s.transfer.jobs = []) (lowest : (s.lowestMember j).any s.isSelf = true) (free : s.replyFree) :
    (s.syncRequested j).transfer.jobs = [.sync j (.dir 0)] ∧
      (s.syncRequested j).liu.reply = s.liu.reply ++ [{ item := .dir j 0, marked := false }] := by
  let v := s.withTransfer fun x => { x with jobs := x.jobs ++ [.sync j .waiting] }
  have only : v.transfer.jobs = [.sync j .waiting] := by
    show s.transfer.jobs ++ _ = _
    rw [idle]
    rfl
  have form : s.syncRequested j = v.serveNext := by
    rw [State.syncRequested, if_pos (by simp [participates, idle, lowest, Config.jobLimit])]
  have serve : v.serveNext = (v.mapJobs (Job.setSyncStage j (.dir 0))).place .reply (.dir j 0) := by
    simp [State.serveNext, only, Job.running]
  obtain ⟨jobs, placed⟩ := State.mapPlace (s := v) (i := .dir j 0) (Job.setSyncStage j (.dir 0)) free (by exact nofun)
  rw [form, serve]
  exact ⟨jobs.trans (by simp [only, Job.setSyncStage, Job.isSync]), placed⟩

theorem State.syncRequested_not_lowest {s : State} {j : Station} (no : (s.lowestMember j).any s.isSelf = false) :
    s.syncRequested j = s := by
  refine if_neg ?_
  simp [no]

/-- A JOIN-REQ at another member (R126). -/
theorem joinReq_member_follows {t : Time} {j : Station} {s : State} (powered : s.powered = true) (other : s.isSelf j = false)
    (quiet : s.notResyncing) (participates : s.station.participates = true) (idle : s.transfer.jobs = []) (free : s.replyFree) :
    ∃ s', exec (.joinReqArrival t j) s = .next s' ∧ s'.directory = s.directory ∧ s'.replicas = s.replicas ∧
      ((s.lowestMember j).any s.isSelf = true → s'.transfer.jobs = [.sync j (.dir 0)] ∧
        s'.liu.reply = s.liu.reply ++ [{ item := .dir j 0, marked := false }]) ∧
      ((s.lowestMember j).any s.isSelf = false → s'.transfer.jobs = [] ∧ s'.liu.reply = s.liu.reply) := by
  have heard := (s.advance t).heardFrom_heard j .joinReq
  have same (y : Station) (ne : y ≠ j) := State.member_heardFrom_ne (s.advance t) ne .joinReq
  obtain ⟨transfer, reply, waiting⟩ := State.heardFrom_idle (s := s.advance t) idle j .joinReq
  generalize is : (s.advance t).heardFrom j .joinReq = h at heard same transfer reply waiting
  have participates' : h.station.participates = true := (congrArg StationState.participates heard.station).trans participates
  have idle' : h.transfer.jobs = [] := (congrArg Transfer.jobs transfer).trans idle
  have lowest : (h.lowestMember j).any h.isSelf = (s.lowestMember j).any s.isSelf := by
    have self : h.isSelf = s.isSelf := funext heard.isSelf
    rw [State.lowestMember_congr same, self]
    rfl
  have form : h.joinRequested j = h.syncRequested j := if_neg fun asked => by
    simp only [Bool.and_eq_true, decide_eq_true_eq] at asked
    rw [asked.1] at participates'
    exact Bool.false_ne_true participates'
  have asked := h.syncRequested_heard j
  obtain ⟨s', next, kept⟩ := arrival_other_commandOnly (t := t) (x := j) (f := .joinReq)
    (deliver := fun own s => match own with
      | some x => s.joinReqEchoed x.item
      | none => s.joinRequested j) (d := h.syncRequested j) powered other rfl (by rw [is]; exact form)
    (asked.notResyncing (heard.notResyncing quiet)) (State.inStep_of_replicas (asked.replicas.trans heard.replicas))
  refine ⟨s', next, kept.directory.trans (asked.directory.trans heard.directory),
    kept.replicas.trans (asked.replicas.trans heard.replicas), fun yes => ?_, fun no => ?_⟩
  · obtain ⟨jobs, placed⟩ := State.syncRequested_lowest participates' idle' (lowest.trans yes) ⟨reply ▸ free.1, waiting.trans free.2⟩
    exact ⟨(congrArg Transfer.jobs kept.transfer).trans jobs, kept.reply.trans (placed.trans (congrArg (· ++ _) reply))⟩
  · rw [State.syncRequested_not_lowest (lowest.trans no)] at kept
    exact ⟨(congrArg Transfer.jobs kept.transfer).trans idle', kept.reply.trans reply⟩

/-! ## JOIN-REQ at a joiner (R122, R125) -/

theorem State.isResponder_iff {s : State} {rec : JoinRecord} (join : s.membership.join = some rec) (x : Station) :
    s.isResponder x = true ↔ rec.responder = some x := by
  simp [State.isResponder, join]

/-- An attempt with the transmitter off and room in the originated queue (R122). -/
theorem State.placeAttempt_of_off {s : State} (off : s.liu.transmitter = .off) (free : s.originatedFree) :
    s.placeAttempt.liu.originated = s.liu.originated.filter (fun q => !q.item.isRenewal) ++
      [{ item := .joinReq false, marked := false }] := by
  let v := s.withMembership fun m => { m with join := m.join.map fun j => { j with gap := none } }
  have withdrawn : (v.cancel .originated Item.isRenewal).liu =
      (s.liu.setQueue .originated (s.liu.originated.filter fun q => !q.item.isRenewal)).setWaiting .originated
        (s.liu.originatedWaiting.filter fun i => !i.isRenewal) := Liu.cancel_of_off (l := s.liu) off .originated Item.isRenewal
  have room : ((v.cancel .originated Item.isRenewal).liu.queue .originated).length < 8 := by
    rw [withdrawn]
    exact lt_of_le_of_lt (List.length_filter_le _ _) free.1
  have nothing : (v.cancel .originated Item.isRenewal).liu.waiting .originated = [] := by
    rw [withdrawn]
    show s.liu.originatedWaiting.filter _ = []
    rw [free.2]
    rfl
  have form : s.placeAttempt = (v.cancel .originated Item.isRenewal).place .originated (.joinReq false) := rfl
  rw [form, State.place_of_room room nothing, State.append_of_ne (by exact nofun)]
  show (v.cancel .originated Item.isRenewal).liu.originated ++ _ = _
  rw [withdrawn]
  rfl

/-- A JOIN-REQ of the responder restarts the join (R125). -/
theorem joinReq_responder_follows {t : Time} {x : Station} {rec : JoinRecord} {s : State} (powered : s.powered = true)
    (other : s.isSelf x = false) (joining : s.station = .joining) (join : s.membership.join = some rec)
    (responder : rec.responder = some x) (few : rec.attempt < 4) (free : s.originatedFree) (off : s.liu.transmitter = .off) :
    ∃ s', exec (.joinReqArrival t x) s = .next s' ∧ s'.station = .joining ∧
      s'.membership.join = some { rec with attempt := rec.attempt + 1, responder := none, gap := none } ∧
      s'.liu.originated = s.liu.originated.filter (fun q => !q.item.isRenewal) ++ [{ item := .joinReq false, marked := false }] ∧
      s'.directory = s.directory ∧ s'.replicas = s.replicas := by
  have heard := (s.advance t).heardFrom_heard x .joinReq
  have next := arrival_of_other (t := t) (x := x) (f := .joinReq)
    (deliver := fun own s => match own with
      | some x => s.joinReqEchoed x.item
      | none => s.joinRequested x) powered other rfl
  generalize (s.advance t).heardFrom x .joinReq = h at heard next
  have joining' : h.station = .joining := heard.station.trans joining
  have join' : h.membership.join = some rec := heard.join.trans join
  let v := h.withMembership fun m => { m with join := some { rec with attempt := rec.attempt + 1, responder := none } }
  have form : h.joinRequested x = v.placeAttempt := by
    have asked : h.isResponder x = true := (State.isResponder_iff join' x).2 responder
    rw [State.joinRequested, if_pos (by simp [joining', asked]), State.joinFails_again join' few]
    rfl
  have line := LineOnly.of_core_eq v.core_placeAttempt
  have same : (h.joinRequested x).conclude (s.advance t) = h.joinRequested x := by
    rw [form]
    exact State.conclude_of_views (State.inStep_of_replicas (line.replicas.trans heard.replicas))
      (line.directory.trans heard.directory) (line.budget.trans heard.budget)
      (fun leaving => nomatch (line.station.trans joining').symm.trans leaving)
  refine ⟨_, next.trans (congrArg _ same), ?_⟩
  rw [form]
  refine ⟨line.station.trans joining', congrArg Membership.join line.membership, ?_, line.directory.trans heard.directory,
    line.replicas.trans heard.replicas⟩
  have placed := State.placeAttempt_of_off (s := v) (heard.transmitter.trans off)
    ⟨by rw [show v.liu.originated = s.liu.originated from heard.originated]; exact free.1, heard.originatedWaiting.trans free.2⟩
  rw [placed, show v.liu.originated = s.liu.originated from heard.originated]

/-- The echo of an attempt sets the gap and renewal deadlines (R122, R123). -/
theorem joinReq_echo_follows {t : Time} {x : Station} {m : Bool} {rest : List Queued} {rec : JoinRecord} {s : State}
    (powered : s.powered = true) (self : s.isSelf x = true) (joining : s.station = .joining)
    (join : s.membership.join = some rec)
    (flies : s.inFlight .originated .joinReq { item := .joinReq false, marked := m } rest) :
    ∃ s', exec (.joinReqArrival t x) s = .next s' ∧ s'.membership.join = some { rec with
      gap := some (max s.now t + 5000000), renewal := some (max s.now t + 8000000) } := by
  have echo := State.echoed_echo (s := s.advance t) (x := x) flies
  have next := arrival_of_own (t := t) (x := x)
    (deliver := fun own s => match own with
      | some x => s.joinReqEchoed x.item
      | none => s.joinRequested x) powered self rfl flies
  generalize (s.advance t).echoed x = e at echo next
  have join' : e.membership.join = some { rec with renewal := some (max s.now t + 8000000) } :=
    (echo.renewal joining).trans (congrArg (Option.map _) join)
  have kept : CommandOnly (e.joinReqEchoed (.joinReq false)) ((e.joinReqEchoed (.joinReq false)).conclude (s.advance t)) :=
    State.conclude_commandOnly (fun leaving => nomatch (echo.station.trans joining).symm.trans leaving)
      (State.inStep_of_replicas echo.replicas)
  refine ⟨_, next, ?_⟩
  rw [show (match some { item := Item.joinReq false, marked := m : Queued } with
      | some x => e.joinReqEchoed x.item
      | none => e.joinRequested x) = e.joinReqEchoed (.joinReq false) from rfl, kept.membership]
  show e.membership.join.map (fun rec => { rec with gap := some (e.now + 5000000) }) = _
  rw [join', echo.now]
  rfl

end Sys2Proof.Machine
end

section
/-! PROOF. A DIR at the joiner, and the gap deadline of a joiner without a responder (R124, R130, R131). -/

-- One declaration at a time: side by side, the case splits of these proofs want more threads than the memory limit allows.
set_option Elab.async false

namespace Sys2Proof.Machine

/-! ## The installation of a group (R131, R132) -/

/-- What the installation of directory entries leaves. -/
structure Rewritten (s t : State) : Prop where
  now : t.now = s.now
  config : t.host.config = s.host.config
  membership : t.membership = s.membership
  content : ∀ r, (t.replica r).content = (s.replica r).content

theorem Rewritten.refl (s : State) : Rewritten s s := ⟨rfl, rfl, rfl, fun _ => rfl⟩

theorem Rewritten.trans {s t u : State} (h : Rewritten s t) (g : Rewritten t u) : Rewritten s u :=
  ⟨g.now.trans h.now, g.config.trans h.config, g.membership.trans h.membership, fun r => (g.content r).trans (h.content r)⟩

theorem Rewritten.station {s t : State} (h : Rewritten s t) : t.station = s.station := congrArg Membership.station h.membership

/-- The entry that a DIR entry leaves (R131). -/
def State.installedEntry (s : State) (e : DirField) : Entry :=
  { state := (s.installedState e).1, lastOwner := (s.installedState e).2, overheard := none }

theorem State.installedEntry_eq (s : State) (e : DirField) : s.installedEntry e =
    match e.shown with
    | .free => { state := .free, lastOwner := e.lastOwner, overheard := none }
    | .claimed c =>
      if s.isSelf c.station then
        { state := .settling .ownerAbsent (s.now + 300000), lastOwner := some c.station, overheard := none }
      else { state := .claimed c (s.now + 250000), lastOwner := e.lastOwner, overheard := none }
    | .held y =>
      if s.isSelf y then
        { state := .settling .ownerAbsent (s.now + 300000), lastOwner := some y, overheard := none }
      else { state := .held y (s.now + s.leaseTime) .notOwn, lastOwner := e.lastOwner, overheard := none }
    | .settling => { state := .settling .released (s.now + 300000), lastOwner := e.lastOwner, overheard := none } := by
  unfold State.installedEntry State.installedState
  cases e.shown with
  | free | settling => rfl
  | claimed c =>
    cases self : s.isSelf c.station with
    | true => simp only [self, if_true]; rfl
    | false => simp only [self, Bool.false_eq_true, if_false]; rfl
  | held y =>
    cases self : s.isSelf y with
    | true => simp only [self, if_true]; rfl
    | false => simp only [self, Bool.false_eq_true, if_false, State.heldState]

theorem State.installedEntry_congr {s t : State} (now : t.now = s.now) (config : t.host.config = s.host.config) (e : DirField) :
    t.installedEntry e = s.installedEntry e := by
  have self : t.isSelf = s.isSelf := funext fun x => by simp only [State.isSelf, State.self, config]
  have lease : t.leaseTime = s.leaseTime := by simp only [State.leaseTime, config]
  rw [State.installedEntry_eq, State.installedEntry_eq, self, lease, now]

theorem State.checkVersion_content (s : State) (r q : Region) (v : Version) :
    ((s.checkVersion r v).replica q).content = (s.replica q).content := by
  rcases s.checked_cases r v with ⟨-, -, kept⟩ | ⟨-, same⟩
  · rw [kept.replica]
    refine (congrArg Replica.content (State.replica_outdated q)).trans ?_
    split
    next is => rw [is]
    next => rfl
  · rw [same]

theorem State.installEntry_rewritten (s : State) (r : Region) (e : DirField) : Rewritten s (s.installEntry r e) ∧
    ∀ q, (s.installEntry r e).entry q = if q = r then s.installedEntry e else s.entry q := by
  have form : s.installEntry r e = (s.changeEntry r (s.installedEntry e) true).checkVersion r e.version := rfl
  have written : DirectoryOnly s (s.changeEntry r (s.installedEntry e) true) := (DirectoryOnly.refl s).changeEntry
  have checked := (s.changeEntry r (s.installedEntry e) true).checkVersion_transferOnly r e.version
  rw [form]
  exact ⟨⟨checked.now.trans written.now, checked.config.trans written.config, checked.membership.trans written.membership,
    fun q => (State.checkVersion_content _ r q e.version).trans
      (congrArg Replica.content (State.replica_congr written.replicas q))⟩,
    fun q => (checked.entry q).trans (s.entry_changeEntry r q _ true)⟩

theorem State.foldl_installEntry {α : Type} (region : α → Region) (field : α → DirField) (xs : List α)
    (apart : xs.Pairwise fun a b => region a ≠ region b) (s : State) :
    let t := xs.foldl (fun s a => s.installEntry (region a) (field a)) s
    Rewritten s t ∧ (∀ a, a ∈ xs → t.entry (region a) = s.installedEntry (field a)) ∧
      ∀ q, (∀ a, a ∈ xs → q ≠ region a) → t.entry q = s.entry q := by
  induction xs generalizing s with
  | nil => exact ⟨.refl s, fun _ no => absurd no List.not_mem_nil, fun _ _ => rfl⟩
  | cons a xs ih =>
    obtain ⟨here, later⟩ := List.pairwise_cons.1 apart
    obtain ⟨one, entries⟩ := s.installEntry_rewritten (region a) (field a)
    obtain ⟨rest, inside, outside⟩ := ih later (s.installEntry (region a) (field a))
    refine ⟨one.trans rest, fun b mem => ?_, fun q out => ?_⟩
    · rcases List.mem_cons.1 mem with is | mem
      · rw [List.foldl_cons, is, outside _ fun c mem => here c mem, entries, if_pos rfl]
      · rw [List.foldl_cons, inside b mem, State.installedEntry_congr one.now one.config]
    · rw [List.foldl_cons, outside q fun b mem => out b (List.mem_cons_of_mem _ mem), entries,
        if_neg (out a List.mem_cons_self)]

theorem groupRegion_inj {g : Group} {i k : Fin 8} (h : groupRegion g i = groupRegion g k) : i = k := by
  have eq : 8 * g.val + i.val = 8 * g.val + k.val := congrArg Fin.val h
  exact Fin.ext (by omega)

/-- A group's eight entries, and no other (R131). -/
theorem State.installGroup_rewritten (s : State) (g : Group) {es : List DirField} (whole : es.length = 8) :
    Rewritten s (s.installGroup g es) ∧
    (∀ q : Region, q.val / 8 ≠ g.val → (s.installGroup g es).entry q = s.entry q) ∧
    ∀ (q : Region) (e : DirField), q.val / 8 = g.val → es[q.val % 8]? = some e →
      (s.installGroup g es).entry q = s.installedEntry e := by
  have firsts : (((List.finRange 8).zip es).map Prod.fst).Nodup := by
    rw [List.map_fst_zip (by simp [whole])]
    exact List.nodup_finRange 8
  obtain ⟨written, inside, outside⟩ := State.foldl_installEntry (fun a : Fin 8 × DirField => groupRegion g a.1) (·.2)
    ((List.finRange 8).zip es) ((List.pairwise_map.1 firsts).imp fun ne h => ne (groupRegion_inj h)) s
  refine ⟨written, fun q apart => outside q fun a _ is => apart ?_, fun q e here at_ => ?_⟩
  · have val : q.val = 8 * g.val + a.1.val := congrArg Fin.val is
    have small := a.1.isLt
    omega
  · have small : q.val % 8 < 8 := Nat.mod_lt _ (by omega)
    have is : q = groupRegion g ⟨q.val % 8, small⟩ := Fin.ext (by
      show q.val = 8 * g.val + q.val % 8
      omega)
    have mem : (⟨q.val % 8, small⟩, e) ∈ (List.finRange 8).zip es := by
      have first : (List.finRange 8)[q.val % 8]? = some ⟨q.val % 8, small⟩ := by
        rw [List.getElem?_eq_getElem (by simpa using small)]
        simp
      exact List.mem_of_getElem? (List.getElem?_zip_eq_some.2 ⟨first, at_⟩)
    exact (congrArg _ is).trans (inside (⟨q.val % 8, small⟩, e) mem)

/-! ## The gap deadline (R124) -/

/-- The join record after a frame that qualifies for the gap deadline at instant `now` (R124). -/
def withGap (rec : JoinRecord) (now : Time) : JoinRecord := { rec with gap := some (now + 5000000) }

theorem State.restartGap_qualified {s : State} {rec : JoinRecord} {x j : Station} (joining : s.station = .joining)
    (join : s.membership.join = some rec) (who : rec.responder = none ∨ s.isSelf j = true ∧ rec.responder = some x) :
    (s.restartGap x j).membership.join = some (withGap rec s.now) := by
  have yes : s.qualifies x j = true := by
    rcases who with none | ⟨self, some⟩
    · simp [State.qualifies, joining, join, none]
    · simp [State.qualifies, joining, join, some, self]
  rw [State.restartGap, if_pos yes]
  show s.membership.join.map _ = _
  rw [join]
  rfl

/-- What a frame for a joiner leaves of the join record before the blocks read it (R124). -/
theorem State.restartGap_join {s : State} {rec : JoinRecord} (x j : Station) (joining : s.station = .joining)
    (join : s.membership.join = some rec) :
    ∃ gap, (s.restartGap x j).membership.join = some { rec with gap := gap } ∧
      (rec.responder = none ∨ s.isSelf j = true ∧ rec.responder = some x → gap = some (s.now + 5000000)) := by
  by_cases who : rec.responder = none ∨ s.isSelf j = true ∧ rec.responder = some x
  · exact ⟨_, State.restartGap_qualified joining join who, fun _ => rfl⟩
  · by_cases yes : s.qualifies x j = true
    · rw [State.restartGap, if_pos yes]
      exact ⟨_, congrArg (Option.map _) join, fun no => absurd no who⟩
    · rw [State.restartGap, if_neg yes]
      exact ⟨rec.gap, join, fun no => absurd no who⟩

/-! ## A DIR at the joiner (R124, R130, R131) -/

/-- The run set after a DIR of group `g` (R130). -/
def runAfter (g : Group) (runSet : List Group) : List Group := if g = 0 then [0] else insertAscending g runSet

/-- The join record after a DIR of group `g` from station `x` that counts (R130). -/
def afterDir (rec : JoinRecord) (x : Station) (g : Group) : JoinRecord :=
  { rec with responder := some x, runSet := runAfter g rec.runSet }

/-- A DIR that counts: group 0 from any station, the other groups from the responder (R130). -/
theorem State.dirReceived_counts {s : State} {rec : JoinRecord} {x : Station} {g : Group} (es : List DirField)
    (join : s.membership.join = some rec) (counts : g = 0 ∨ rec.responder = some x) :
    s.dirReceived x g es = (s.withMembership fun m => { m with join := some (afterDir rec x g) }).installGroup g es := by
  have form (f : JoinRecord → JoinRecord) (is : f rec = afterDir rec x g) :
      (s.withMembership fun m => { m with join := m.join.map f }) =
        s.withMembership fun m => { m with join := some (afterDir rec x g) } := by
    simp only [State.withMembership, join, Option.map_some, is]
  by_cases zero : g = 0
  · rw [State.dirReceived, if_pos zero, form]
    simp [afterDir, runAfter, zero]
  · have responder : rec.responder = some x := counts.resolve_left zero
    have yes : s.isResponder x = true := (State.isResponder_iff join x).2 responder
    rw [State.dirReceived, if_neg zero, if_pos yes, form]
    simp [afterDir, runAfter, zero, responder]

/-- The state in which the joiner finds a DIR (R124). -/
theorem State.dirArrives_joiner {s : State} {x j : Station} {g : Group} {es : List DirField} (joining : s.station = .joining)
    (self : s.isSelf j = true) : s.dirArrives x j g es = ((s.suppressSync j).restartGap x j).dirReceived x g es := by
  have gap := (s.suppressSync j).restartGap_gapOnly x j
  have regions := (s.suppressSync_heard j).toRegionsKept.trans gap.toRegionsKept
  unfold State.dirArrives
  dsimp only
  rw [if_pos]
  rw [regions.station, regions.isSelf, joining, self]
  rfl

/-- Settles O47. -/
theorem dirIsInstalledByTheJoiner : Obligations.DirIsInstalledByTheJoiner := by
  intro t x j g es rec s powered other self joining join good counts
  have heard := (s.advance t).heardFrom_heard x (.dir j g es)
  have next := arrival_of_other (t := t) (x := x) (f := .dir j g es)
    (deliver := fun own s => match own with
      | some y => s.syncEchoed y x j fun s => s.dirEchoed j g
      | none => s.dirArrives x j g es) powered other good
  generalize (s.advance t).heardFrom x (.dir j g es) = h at heard next
  have form := State.dirArrives_joiner (s := h) (x := x) (g := g) (es := es) (heard.station.trans joining)
    ((heard.isSelf j).trans self)
  have found := heard.trans (h.suppressSync_heard j)
  obtain ⟨gap, restarted, due⟩ := State.restartGap_join x j (found.station.trans joining) (found.join.trans join)
  have kept := found.toRegionsKept.trans ((h.suppressSync j).restartGap_gapOnly x j).toRegionsKept
  generalize (h.suppressSync j).restartGap x j = u at form restarted kept
  rw [State.dirReceived_counts es restarted counts] at form
  have whole : es.length = 8 := by
    simp only [Frame.goodForm, Bool.and_eq_true, beq_iff_eq] at good
    exact good.1
  obtain ⟨written, outside, inside⟩ := State.installGroup_rewritten (u.withMembership fun m => { m with
    join := some (afterDir { rec with gap := gap } x g) }) g whole
  have joining' : (h.dirArrives x j g es).station = .joining := by
    rw [form, written.station]
    exact kept.station.trans joining
  have concluded : CommandOnly (h.dirArrives x j g es) ((h.dirArrives x j g es).conclude (s.advance t)) :=
    State.conclude_commandOnly (fun leaving => nomatch joining'.symm.trans leaving)
      (.inr (.inr (.inl (by rw [show (s.advance t).station = .joining from joining]; exact nofun))))
  refine ⟨_, next, fun q apart => ?_, fun q e here at_ => ?_, fun q => ?_,
    afterDir { rec with gap := gap } x g, ?_, rfl, ?_, fun zero => ?_, fun responder => ?_⟩
  · refine (concluded.entry q).trans ?_
    rw [form, outside q apart]
    exact kept.entry q
  · refine (concluded.entry q).trans ?_
    rw [form, inside q e here at_]
    exact (State.installedEntry_congr (s := s.advance t) kept.now kept.config e).trans (State.installedEntry_eq _ e)
  · refine (congrArg Replica.content (concluded.replica q)).trans ?_
    rw [form, written.content]
    exact congrArg Replica.content (State.replica_congr kept.replicas q)
  · refine (congrArg Membership.join concluded.membership).trans ?_
    rw [form, written.membership]
    rfl
  · show g ∈ runAfter g rec.runSet
    unfold runAfter
    split
    next zero => exact zero ▸ List.mem_singleton_self _
    next => exact mem_insertAscending.2 (.inl rfl)
  · exact if_pos zero
  · refine (due (.inr ⟨(found.isSelf j).trans self, responder⟩)).trans ?_
    rw [found.now]
    rfl

/-! ## The gap deadline of a joiner without a responder (R124, R128) -/

/-- The gap deadline of the join stands 5 ms ahead (R124). -/
def State.gapSet (s : State) : Prop :=
  s.station = .joining ∧ ∃ rec, s.membership.join = some rec ∧ rec.gap = some (s.now + 5000000)

theorem State.gapSet_congr {s t : State} (membership : t.membership = s.membership) (now : t.now = s.now) (set : s.gapSet) :
    t.gapSet := by
  obtain ⟨station, rec, join, gap⟩ := set
  exact ⟨(congrArg Membership.station membership).trans station, rec, (congrArg Membership.join membership).trans join,
    gap.trans (by rw [now])⟩

/-- A joiner without a responder (R121). -/
def State.seeks (s : State) : Prop := s.station = .joining ∧ ∃ rec, s.membership.join = some rec ∧ rec.responder = none

theorem State.seeks.stranger {s : State} (seeks : s.seeks) (x : Station) : s.isResponder x = false := by
  obtain ⟨-, rec, join, none⟩ := seeks
  simp [State.isResponder, join, none]

theorem Heard.seeks {s t : State} (h : Heard s t) (seeks : s.seeks) : t.seeks := by
  obtain ⟨station, rec, join, none⟩ := seeks
  exact ⟨h.station.trans station, rec, h.join.trans join, none⟩

/-- Any station's frame for any joiner restarts its gap deadline. -/
theorem State.seeks.restartGap {s : State} (seeks : s.seeks) (x j : Station) : (s.restartGap x j).gapSet := by
  obtain ⟨station, rec, join, none⟩ := seeks
  have gap := s.restartGap_gapOnly x j
  refine ⟨gap.station.trans station, _, State.restartGap_qualified station join (.inl none), ?_⟩
  rw [gap.now]
  rfl

theorem State.seeks.dirArrives {s : State} (seeks : s.seeks) (x j : Station) (g : Group) {es : List DirField}
    (whole : es.length = 8) : (s.dirArrives x j g es).gapSet := by
  have found := (s.suppressSync_heard j).seeks seeks
  have set := found.restartGap x j
  have stranger : ((s.suppressSync j).restartGap x j).isResponder x = false :=
    (((s.suppressSync j).restartGap_gapOnly x j).responder x).trans (found.stranger x)
  unfold State.dirArrives
  dsimp only
  generalize (s.suppressSync j).restartGap x j = u at set stranger
  split
  · unfold State.dirReceived
    obtain ⟨station, rec, join, gap⟩ := set
    have stranger' : ¬ u.isResponder x = true := by rw [stranger]; exact Bool.false_ne_true
    rw [if_neg stranger']
    split
    next =>
      obtain ⟨written, -, -⟩ := State.installGroup_rewritten (u.withMembership fun m => { m with
        join := m.join.map fun rec => { rec with responder := some x, runSet := [0] } }) g whole
      refine State.gapSet_congr written.membership written.now ⟨station, _, congrArg (Option.map _) join, gap⟩
    next => exact ⟨station, rec, join, gap⟩
  · exact set

theorem State.seeks.syncEndArrives {s : State} (seeks : s.seeks) (x j : Station) : (s.syncEndArrives x j).gapSet := by
  have found := (s.suppressSync_heard j).seeks seeks
  have stranger : ((s.suppressSync j).restartGap x j).isResponder x = false :=
    (((s.suppressSync j).restartGap_gapOnly x j).responder x).trans (found.stranger x)
  unfold State.syncEndArrives
  dsimp only
  rw [if_neg (by simp [stranger])]
  exact found.restartGap x j

/-- The event of a joiner keeps the gap deadline. -/
theorem State.gapSet.concludeFrom {s before : State} {n : Nat} (set : s.gapSet) (joining : before.station = .joining) :
    (s.concludeFrom before n).gapSet := by
  have none : s.requestResync before n = s := if_neg (by simp [joining])
  have kept : CommandOnly s (s.concludeFrom before n) := by
    rw [State.concludeFrom, none]
    have retried := (CommandOnly.refl s).retryOpen (before := before)
    exact retried.trans (CommandOnly.endReleases (retried.notResyncing fun leaving => nomatch set.1.symm.trans leaving))
  exact State.gapSet_congr kept.membership kept.now set

theorem arrivingFrame_dir {c : Instr} {x j : Station} {g : Group} {es : List DirField}
    (is : c.arrivingFrame = some (x, .dir j g es)) : ∃ t, c = .dirArrival t x j g es := by
  cases c with
  | dirArrival t => cases is; exact ⟨t, rfl⟩
  | _ => nomatch is

theorem arrivingFrame_snap {c : Instr} {x : Station} {p : PartField} (is : c.arrivingFrame = some (x, .snap p)) :
    ∃ t, c = .snapArrival t x p := by
  cases c with
  | snapArrival t => cases is; exact ⟨t, rfl⟩
  | _ => nomatch is

theorem arrivingFrame_syncEnd {c : Instr} {x j : Station} (is : c.arrivingFrame = some (x, .syncEnd j)) :
    ∃ t, c = .syncEndArrival t x j := by
  cases c with
  | syncEndArrival t => cases is; exact ⟨t, rfl⟩
  | _ => nomatch is

section Seeking

variable {t : Time} {x : Station} {f : Frame} {s : State}

theorem State.seeks.heardFrom (seeks : s.seeks) (x : Station) (f : Frame) : ((s.advance t).heardFrom x f).seeks :=
  ((s.advance t).heardFrom_heard x f).seeks (s := s.advance t) seeks

/-- At the echo of its own sync frame, begun before it entered JOINING (R114, R124). -/
theorem State.seeks.syncEchoed {q : QueueId} {i : Queued} {rest : List Queued} (seeks : s.seeks) (flies : s.inFlight q f i rest)
    {goOn : State → State} (goes : ∀ u, Heard u (goOn u)) (j : Station) :
    (((s.advance t).echoed x).syncEchoed i x j goOn).gapSet := by
  obtain ⟨station, rec, join, none⟩ := seeks
  have echo := State.echoed_echo (s := s.advance t) (x := x) flies
  have seeks' : ((s.advance t).echoed x).seeks :=
    ⟨echo.station.trans station, _, (echo.renewal station).trans (congrArg (Option.map _) join), none⟩
  have went : Heard ((s.advance t).echoed x) (((s.advance t).echoed x).jobEchoed i goOn) := (Heard.refl _).ite (goes _)
  exact (went.seeks seeks').restartGap x j

end Seeking

theorem seeking_follows {c : Instr} {x : Station} {f : Frame} {q : QueueId} {i : Queued} {rest : List Queued} {s : State}
    (is : c.arrivingFrame = some (x, f)) (good : f.goodForm = true)
    (sync : (∃ j g es, f = .dir j g es) ∨ (∃ p, f = .snap p) ∨ (∃ j, f = .syncEnd j)) (powered : s.powered = true) (seeks : s.seeks)
    (who : s.isSelf x = false ∨ s.inFlight q f i rest) : ∃ s', exec c s = .next s' ∧ s'.gapSet := by
  have joining : s.station = .joining := seeks.1
  rcases sync with ⟨j, g, es, rfl⟩ | ⟨p, rfl⟩ | ⟨j, rfl⟩
  · obtain ⟨t, rfl⟩ := arrivingFrame_dir is
    have whole : es.length = 8 := by
      simp only [Frame.goodForm, Bool.and_eq_true, beq_iff_eq] at good
      exact good.1
    by_cases other : s.isSelf x = false
    · have next := arrival_of_other (t := t) (x := x) (f := .dir j g es)
        (deliver := fun own s => match own with
          | some y => s.syncEchoed y x j fun s => s.dirEchoed j g
          | none => s.dirArrives x j g es) powered other good
      exact ⟨_, next, ((seeks.heardFrom x _).dirArrives x j g whole).concludeFrom joining⟩
    · have flies := who.resolve_left other
      have next := arrival_of_own (t := t) (x := x)
        (deliver := fun own s => match own with
          | some y => s.syncEchoed y x j fun s => s.dirEchoed j g
          | none => s.dirArrives x j g es) powered (by simpa using other) good flies
      exact ⟨_, next, (seeks.syncEchoed flies (fun u => u.dirEchoed_heard j g) j).concludeFrom joining⟩
  · obtain ⟨t, rfl⟩ := arrivingFrame_snap is
    by_cases other : s.isSelf x = false
    · have next := partArrival_of_other (t := t) (x := x) (f := .snap p) (kind := .snap) (p := p)
        (echoed := fun y s => s.syncEchoed y x p.peer fun s => s.snapPartEchoed p)
        (suppress := fun s => (s.suppressSync p.peer).restartGap x p.peer) powered other good
      have found := (State.suppressSync_heard _ p.peer).seeks (seeks.heardFrom (t := t) x (.snap p))
      have stranger := ((State.restartGap_gapOnly _ x p.peer).responder x).trans (found.stranger x)
      rw [State.receivePart_of_stranger stranger] at next
      exact ⟨_, next, (found.restartGap x p.peer).concludeFrom joining⟩
    · have flies := who.resolve_left other
      have next := partArrival_of_own (t := t) (x := x) (f := .snap p) (kind := .snap) (p := p)
        (echoed := fun y s => s.syncEchoed y x p.peer fun s => s.snapPartEchoed p)
        (suppress := fun s => (s.suppressSync p.peer).restartGap x p.peer) powered (by simpa using other) good flies
      exact ⟨_, next, (seeks.syncEchoed flies (fun u => u.snapPartEchoed_heard p) p.peer).concludeFrom joining⟩
  · obtain ⟨t, rfl⟩ := arrivingFrame_syncEnd is
    by_cases other : s.isSelf x = false
    · have next := arrival_of_other (t := t) (x := x) (f := .syncEnd j)
        (deliver := fun own s => match own with
          | some y => s.syncEchoed y x j fun s => s.syncEndEchoed j
          | none => s.syncEndArrives x j) powered other good
      exact ⟨_, next, ((seeks.heardFrom x _).syncEndArrives x j).concludeFrom joining⟩
    · have flies := who.resolve_left other
      have next := arrival_of_own (t := t) (x := x)
        (deliver := fun own s => match own with
          | some y => s.syncEchoed y x j fun s => s.syncEndEchoed j
          | none => s.syncEndArrives x j) powered (by simpa using other) good flies
      exact ⟨_, next, (seeks.syncEchoed flies (fun u => u.syncEndEchoed_heard j) j).concludeFrom joining⟩

/-- Settles O46. -/
theorem joinRequestsStartOrRestartAJoin : Obligations.JoinRequestsStartOrRestartAJoin := by
  refine ⟨fun t j s powered other quiet participates idle free =>
      joinReq_member_follows powered other quiet participates idle free,
    fun t x rec s powered other joining join responder few free off =>
      joinReq_responder_follows powered other joining join responder few free off,
    fun t x m rest rec s powered self joining join flies => joinReq_echo_follows powered self joining join flies,
    fun c x f q i rest rec s is good sync powered joining join none who => ?_⟩
  obtain ⟨s', next, -, rec', join', gap⟩ := seeking_follows is good sync powered ⟨joining, rec, join, none⟩ who
  exact ⟨s', rec', next, join', gap⟩

end Sys2Proof.Machine
end

section
/-! PROOF. The end of a join at SYNC-END (R125, R135). -/

-- One declaration at a time: side by side, the case splits of these proofs want more threads than the memory limit allows.
set_option Elab.async false

namespace Sys2Proof.Machine

/-! ## The replicas that stayed UNSYNCED (R51, R135) -/

/-- Replicas that become STALE one after another, each at the tail of the repair list. -/
theorem State.foldl_outdate (rs : List Region) (nodup : rs.Nodup) {s : State} (closed : s.transfer.reception = none)
    (behind : ∀ r, r ∈ rs → (s.replica r).condition = .unsynced) :
    let t := rs.foldl (fun s r => s.changeCondition r .stale) s
    t.transfer.repairList = s.transfer.repairList ++ rs ∧
      ∀ q, t.replica q = if q ∈ rs then { s.replica q with condition := .stale } else s.replica q := by
  induction rs generalizing s with
  | nil => exact ⟨(List.append_nil _).symm, fun q => (if_neg List.not_mem_nil).symm⟩
  | cons r rs ih =>
    obtain ⟨fresh, nodup'⟩ := List.nodup_cons.1 nodup
    have here := behind r List.mem_cons_self
    have step : s.changeCondition r .stale = s.outdated r :=
      State.changeCondition_of_not_current (by rw [here]; exact nofun) (by rw [here]; exact nofun)
    have list : (s.outdated r).transfer.repairList = s.transfer.repairList ++ [r] :=
      State.repairList_outdated (by simp [State.inReception, closed])
    have kept {q : Region} (ne : q ≠ r) : (s.outdated r).replica q = s.replica q :=
      (State.replica_outdated q).trans (if_neg ne)
    obtain ⟨lists, replicas⟩ := ih nodup' (s := s.outdated r) closed fun q mem => by
      rw [kept fun is => fresh (is ▸ mem)]
      exact behind q (List.mem_cons_of_mem _ mem)
    rw [List.foldl_cons, step]
    refine ⟨by rw [lists, list, List.append_assoc]; rfl, fun q => ?_⟩
    rw [replicas]
    by_cases is : q = r
    · rw [is, if_neg fresh, if_pos List.mem_cons_self, State.replica_outdated, if_pos rfl]
    · simp only [kept is, List.mem_cons, is, false_or]

theorem State.staleUnsynced_follows {s : State} (closed : s.transfer.reception = none) :
    s.staleUnsynced.transfer.repairList =
        s.transfer.repairList ++ allRegions.filter (fun r => (s.replica r).condition == .unsynced) ∧
      ∀ r, (s.staleUnsynced.replica r).content = (s.replica r).content ∧ (s.staleUnsynced.replica r).version = (s.replica r).version ∧
        (s.staleUnsynced.replica r).condition =
          if (s.replica r).condition = .unsynced then .stale else (s.replica r).condition := by
  obtain ⟨list, replicas⟩ := State.foldl_outdate (allRegions.filter fun r => (s.replica r).condition == .unsynced)
    ((List.nodup_finRange 64).filter _) closed fun r mem => by simpa using (List.mem_filter.1 mem).2
  refine ⟨list, fun r => ?_⟩
  have at_ : s.staleUnsynced.replica r = _ := replicas r
  have mem : r ∈ allRegions.filter (fun r => (s.replica r).condition == .unsynced) ↔ (s.replica r).condition = .unsynced := by
    simp [allRegions]
  rw [at_]
  by_cases is : (s.replica r).condition = .unsynced
  · rw [if_pos (mem.2 is), if_pos is]
    exact ⟨rfl, rfl, rfl⟩
  · rw [if_neg fun h => is (mem.1 h), if_neg is]
    exact ⟨rfl, rfl, rfl⟩

/-! ## SYNC-END at the joiner (R124, R135) -/

section SyncEnd

variable {t : Time} {x j : Station} {rec : JoinRecord} {s : State}

/-- The joiner `u` at the arrival of its responder's SYNC-END, before the join ends. -/
structure EndFound (s u : State) (rec : JoinRecord) (j : Station) : Prop extends RegionsKept s u where
  joining : u.station = .joining
  self : u.self = some j
  reception : u.transfer.reception = none
  repairList : u.transfer.repairList = s.transfer.repairList
  budget : u.budget = s.budget
  join : ∃ gap, u.membership.join = some { rec with gap := gap }

theorem syncEnd_found (powered : s.powered = true) (other : s.isSelf x = false) (self : s.isSelf j = true)
    (joining : s.station = .joining) (join : s.membership.join = some rec) (responder : rec.responder = some x)
    (closed : s.transfer.reception = none) :
    ∃ u, EndFound (s.advance t) u rec j ∧
      exec (.syncEndArrival t x j) s = .next (u.syncEndReceived.conclude (s.advance t)) := by
  have heard := (s.advance t).heardFrom_heard x (.syncEnd j)
  have next := arrival_of_other (t := t) (x := x) (f := .syncEnd j)
    (deliver := fun own s => match own with
      | some y => s.syncEchoed y x j fun s => s.syncEndEchoed j
      | none => s.syncEndArrives x j) powered other rfl
  generalize (s.advance t).heardFrom x (.syncEnd j) = h at heard next
  have found := heard.trans (h.suppressSync_heard j)
  obtain ⟨gap, restarted, -⟩ := State.restartGap_join x j (found.station.trans joining) (found.join.trans join)
  have gapped := (h.suppressSync j).restartGap_gapOnly x j
  have kept := found.toRegionsKept.trans gapped.toRegionsKept
  have yes : ((h.suppressSync j).restartGap x j).isResponder x = true :=
    (gapped.responder x).trans ((found.isResponder x).trans ((State.isResponder_iff (s := s.advance t) join x).2 responder))
  have form : h.syncEndArrives x j = ((h.suppressSync j).restartGap x j).syncEndReceived := by
    unfold State.syncEndArrives
    dsimp only
    rw [if_pos]
    rw [kept.station, kept.isSelf, yes, show (s.advance t).station = .joining from joining,
      show (s.advance t).isSelf j = true from self]
    rfl
  have self' : (s.advance t).self = some j := beq_iff_eq.1 self
  exact ⟨_, ⟨kept, kept.station.trans joining, (by simpa only [State.self, kept.config] using self'),
    (congrArg Transfer.reception gapped.transfer).trans (found.reception.trans closed),
    (congrArg Transfer.repairList gapped.transfer).trans found.repairList, gapped.budget.trans found.budget, gap, restarted⟩,
    form ▸ next⟩

theorem State.runComplete_iff {u : State} (join : u.membership.join = some rec) :
    u.runComplete = true ↔ ∀ g, g ∈ rec.runSet := by
  simp [State.runComplete, join]

theorem EndFound.received {u : State} (found : EndFound s u rec j) : u.syncEndReceived =
    if ∀ g, g ∈ rec.runSet then u.joined else u.joinFails true := by
  obtain ⟨gap, join⟩ := found.join
  have none : u.abandonReception = u := by simp only [State.abandonReception, found.reception]
  have complete : u.runComplete = true ↔ ∀ g, g ∈ rec.runSet := State.runComplete_iff (rec := { rec with gap := gap }) join
  rw [State.syncEndReceived, none]
  simp only [complete]

/-- With all eight groups the station enters MEMBER (R135). -/
theorem EndFound.joins {u : State} (found : EndFound s u rec j) : u.joined.station = .member ∧
    u.joined.membership.join = none ∧ u.joined.directory = s.directory ∧
    u.joined.membership.presenceTimer = some (s.now + 8000000) ∧ (u.joined.member j).presence = .member ∧
    u.joined.transfer.repairList =
      s.transfer.repairList ++ allRegions.filter (fun r => (s.replica r).condition == .unsynced) ∧
    ∀ r, (u.joined.replica r).content = (s.replica r).content ∧ (u.joined.replica r).version = (s.replica r).version ∧
      (u.joined.replica r).condition =
        if (s.replica r).condition = .unsynced then .stale else (s.replica r).condition := by
  have line := LineOnly.of_core_eq u.core_joined
  have only := u.staleUnsynced_transferOnly
  obtain ⟨list, replicas⟩ := State.staleUnsynced_follows found.reception
  have same (r : Region) : u.replica r = s.replica r := State.replica_congr found.replicas r
  have self : u.staleUnsynced.core.self = some j := by
    have config : u.staleUnsynced.core.host.config = u.host.config := only.config
    simpa only [State.self, config] using found.self
  refine ⟨line.station, congrArg Membership.join line.membership, line.directory.trans (only.directory.trans found.directory), ?_,
    ?_, ?_, fun r => ?_⟩
  · refine (congrArg Membership.presenceTimer line.membership).trans ?_
    show some (u.staleUnsynced.now + 8000000) = _
    rw [only.now, found.now]
  · rw [line.member j]
    exact (State.getElem_ownTable self .member j).1 rfl
  · rw [line.transfer]
    refine list.trans ?_
    rw [found.repairList]
    simp only [same]
  · have at_ : u.joined.replica r = u.staleUnsynced.replica r := State.replica_congr line.replicas r
    rw [at_, ← same r]
    exact replicas r

/-- With a group missing the join restarts, and the responder stays (R125, R135). -/
theorem EndFound.restarts {u : State} (found : EndFound s u rec j) (few : rec.attempt < 4) :
    LineOnly (u.withMembership fun m => { m with join := some { rec with attempt := rec.attempt + 1, gap := none } })
      (u.joinFails true) := by
  obtain ⟨gap, join⟩ := found.join
  rw [State.joinFails_again join few]
  refine LineOnly.trans ?_ (lineOnly_core _)
  rw [State.core_placeAttempt]
  exact ⟨rfl, rfl, rfl, rfl, rfl, rfl, rfl, rfl, rfl, rfl, rfl⟩

/-- After the fourth attempt the station listens (R116, R125). -/
theorem EndFound.fails {u : State} (found : EndFound s u rec j) (last : 4 ≤ rec.attempt) :
    (u.joinFails true).station = .listening ∧ (u.joinFails true).membership.faultCause = .joinFailed ∧
      (u.joinFails true).membership.join = none ∧ (∀ r, (u.joinFails true).entry r = Entry.unknown) ∧
      (u.joinFails true).membership.listenTimer = some (s.now + 25000000) ∧
      ∀ r, ((u.joinFails true).replica r).content = (s.replica r).content ∧
        ((u.joinFails true).replica r).version = (s.replica r).version := by
  obtain ⟨gap, join⟩ := found.join
  have line := LineOnly.of_core_eq u.core_failJoining
  rw [State.joinFails_last join last]
  refine ⟨line.station, line.faultCause, congrArg Membership.join line.membership,
    fun r => (line.entry r).trans (State.entry_of_replicate rfl r), ?_, fun r => ?_⟩
  · refine (congrArg Membership.listenTimer line.membership).trans ?_
    exact congrArg (fun n => some (n + 25000000)) found.now
  · have at_ : u.failJoining.replica r = { u.replica r with attempts := 0 } :=
      (State.replica_congr line.replicas r).trans (State.replica_clearAttempts u r)
    rw [at_, State.replica_congr found.replicas r]
    exact ⟨rfl, rfl⟩

end SyncEnd

/-- Settles O48. -/
theorem syncEndEndsTheJoin : Obligations.SyncEndEndsTheJoin := by
  intro t x j rec s powered other self joining join responder closed
  obtain ⟨u, found, next⟩ := syncEnd_found (t := t) powered other self joining join responder closed
  rw [found.received] at next
  have concluded {d : State} (stays : d.station ≠ .leaving) : CommandOnly d (d.conclude (s.advance t)) :=
    State.conclude_commandOnly (fun leaving => absurd leaving stays)
      (.inr (.inr (.inl (by rw [show (s.advance t).station = .joining from joining]; exact nofun))))
  by_cases complete : ∀ g, g ∈ rec.runSet
  · rw [if_pos complete] at next
    obtain ⟨station, left, directory, timer, own, list, replicas⟩ := found.joins
    have kept := concluded (d := u.joined) (by rw [station]; exact nofun)
    refine ⟨_, next, fun r => ?_, fun _ => ⟨kept.station.trans station, ?_, kept.directory.trans directory,
      ?_, ?_, ?_, fun r => ?_⟩, fun no => absurd complete no, fun no => absurd complete no⟩
    · rw [kept.replica r]
      exact ⟨(replicas r).1, (replicas r).2.1⟩
    · exact (congrArg Membership.join kept.membership).trans left
    · exact (congrArg Membership.presenceTimer kept.membership).trans timer
    · rw [kept.member]
      exact own
    · exact (congrArg Transfer.repairList kept.transfer).trans list
    · rw [kept.replica r]
      exact (replicas r).2.2
  · rw [if_neg complete] at next
    by_cases few : rec.attempt < 4
    · have line := found.restarts few
      have station : (u.joinFails true).station = .joining := line.station.trans found.joining
      have kept := line.trans (concluded (d := u.joinFails true) (by rw [station]; exact nofun)).toLineOnly
      have replicas : ((u.joinFails true).conclude (s.advance t)).replicas = s.replicas := kept.replicas.trans found.replicas
      exact ⟨_, next, fun r => by rw [State.replica_congr replicas r]; exact ⟨rfl, rfl⟩, fun yes => absurd yes complete,
        fun _ _ => ⟨kept.station.trans found.joining, kept.directory.trans found.directory, replicas,
          congrArg Membership.join kept.membership⟩,
        fun _ four => absurd few (by omega)⟩
    · obtain ⟨station, cause, left, directory, timer, replicas⟩ := found.fails (Nat.le_of_not_lt few)
      have kept := concluded (d := u.joinFails true) (by rw [station]; exact nofun)
      refine ⟨_, next, fun r => ?_, fun yes => absurd yes complete, fun _ no => absurd no few, fun _ _ =>
        ⟨kept.station.trans station, ?_, ?_, fun r => (kept.entry r).trans (directory r), ?_⟩⟩
      · rw [kept.replica r]
        exact replicas r
      · exact (congrArg Membership.faultCause kept.membership).trans cause
      · exact (congrArg Membership.join kept.membership).trans left
      · exact (congrArg Membership.listenTimer kept.membership).trans timer

end Sys2Proof.Machine
end

section
/-! PROOF. The access instant: the choice, the beginning checks and the filling of the frame (R46, R56, R144, R145, R148, R149). -/

-- One declaration at a time: side by side, the case splits of these proofs want more threads than the memory limit allows.
set_option Elab.async false

namespace Sys2Proof.Machine

/-! ## What a beginning check leaves (R148, R149) -/

/-- `t` is `s` to the beginning checks: instant, budget list, replicas and transmitter. -/
structure Chosen (s t : State) : Prop where
  now : t.now = s.now
  budget : t.budget = s.budget
  replicas : t.replicas = s.replicas
  transmitter : t.liu.transmitter = s.liu.transmitter

theorem Chosen.trans {s t u : State} (h : Chosen s t) (g : Chosen t u) : Chosen s u :=
  ⟨g.now.trans h.now, g.budget.trans h.budget, g.replicas.trans h.replicas, g.transmitter.trans h.transmitter⟩

theorem Chosen.of_lineOnly {s t : State} (h : LineOnly s t) (transmitter : t.liu.transmitter = s.liu.transmitter) : Chosen s t :=
  ⟨h.now, h.budget, h.replicas, transmitter⟩

theorem Chosen.of_heard {s t : State} (h : Heard s t) : Chosen s t := ⟨h.now, h.budget, h.replicas, h.transmitter⟩

theorem State.dropHead_chosen (s : State) (q : QueueId) : Chosen s (s.dropHead q) :=
  .of_lineOnly (s.withLiu_lineOnly _) (by cases q <;> rfl)

theorem State.noticeBudgetFull_liu (s : State) (r : Region) : (s.noticeBudgetFull r).liu = s.liu := by
  unfold State.noticeBudgetFull
  split
  · split
    · split
      · exact State.openSetback_liu _ _ _ _
      · rfl
    · rfl
  · rfl

theorem State.noticeUpdateRefused_liu (s : State) (r refused : Region) : (s.noticeUpdateRefused r refused).liu = s.liu := by
  unfold State.noticeUpdateRefused
  split
  · split
    · split
      · exact State.endCommand_liu
      · exact State.endCommand_liu
      · rfl
    · rfl
  · rfl

theorem State.skipPartZero_chosen (s : State) (kind : TransferKind) (peer : Station) (r : Region) :
    Chosen s (s.skipPartZero kind peer r) := by
  unfold State.skipPartZero
  split
  · cases kind with
    | refresh => exact .of_heard (s.endJobs_heard _)
    | snap => exact .of_heard (s.syncGoOn_heard _ _)
  · exact ⟨rfl, rfl, rfl, rfl⟩

theorem State.settleWaiting_chosen (s : State) : Chosen s s.settleWaiting :=
  .of_lineOnly ((s.placeAllWaiting_lineOnly _).trans (State.placeAllWaiting_lineOnly _ _))
    ((Ranked.refl (p := False) s).settleWaiting).transmitter

theorem State.tryBegin_chosen (s : State) (own : Station) (q : QueueId) (x : Queued) : Chosen s (s.tryBegin own q x).1 := by
  have same : Chosen s s := ⟨rfl, rfl, rfl, rfl⟩
  have dropped := s.dropHead_chosen q
  unfold State.tryBegin
  split
  next r n =>
    split
    · exact same
    · exact dropped.trans (.of_lineOnly (State.noticeBudgetFull_lineOnly _ _) (by rw [State.noticeBudgetFull_liu]))
  next => exact same
  next =>
    split
    · exact same
    · exact dropped.trans (.of_lineOnly (State.raiseObjectionsWithdrawn_lineOnly _) rfl)
  next =>
    split
    · exact ⟨rfl, rfl, rfl, rfl⟩
    · split
      · exact dropped
      · exact dropped.trans (State.skipPartZero_chosen _ _ _ _)
  next => exact same
  next => exact same
  next => exact same
  next =>
    split
    · exact same
    · exact dropped.trans (.of_lineOnly (State.noticeUpdateRefused_lineOnly _ _ _) (by rw [State.noticeUpdateRefused_liu]))
  next => exact same
  next => exact same
  next => exact same
  next => exact same
  next => exact same
  next => exact same

/-- The checks that a frame which begins has passed (R46, R56). -/
structure State.Passed (s : State) (f : Frame) : Prop where
  claim : ∀ r n, f = .claim r n → s.budgetRoom = true
  update : ∀ u, f = .update u → (s.replica u.region).condition = .current ∧ u.version = (s.replica u.region).version + 1

/-- A frame that is neither a CLAIM nor an UPDATE has no check of these to pass. -/
theorem State.Passed.other {s : State} {f : Frame} (claim : ∀ r n, f ≠ .claim r n) (update : ∀ u, f ≠ .update u) : s.Passed f :=
  ⟨fun r n is => absurd is (claim r n), fun u is => absurd is (update u)⟩

theorem TransferKind.frame_passed (s : State) (kind : TransferKind) (p : PartField) : s.Passed (kind.frame p) := by
  cases kind <;> exact .other (fun _ _ => nofun) fun _ => nofun

theorem State.stateObjection_passed {s : State} {own : Station} {c : Claim} {r : Region} {f : Frame}
    (is : s.stateObjection own c r = some f) : s.Passed f := by
  have object : ∃ why x v, f = .object c r why x v := by
    unfold State.stateObjection at is
    dsimp only at is
    split at is
    next =>
      split at is
      next => exact ⟨_, _, _, (Option.some.inj is).symm⟩
      next => exact nomatch is
    next =>
      split at is
      next => exact ⟨_, _, _, (Option.some.inj is).symm⟩
      next => exact nomatch is
    next =>
      split at is
      next => exact ⟨_, _, _, (Option.some.inj is).symm⟩
      next => exact nomatch is
    next => exact nomatch is
    next => exact nomatch is
  obtain ⟨why, x, v, rfl⟩ := object
  exact .other (fun _ _ => nofun) fun _ => nofun

theorem State.updateRefusal_none {s : State} {r : Region} {source : UpdateSource} (none : s.updateRefusal r source = none) :
    (s.replica r).condition = .current := by
  by_contra behind
  have refused : s.updateRefusal r source = some r := if_pos (by simp [State.isCurrent, behind])
  exact nomatch none.symm.trans refused

theorem State.tryBegin_passed {s : State} {own : Station} {q : QueueId} {x : Queued} {f : Frame}
    (begins : (s.tryBegin own q x).2 = some f) : s.Passed f := by
  have other {g : Frame} (is : some g = some f) (claim : ∀ r n, g ≠ .claim r n) (update : ∀ u, g ≠ .update u) : s.Passed f :=
    Option.some.inj is ▸ .other claim update
  unfold State.tryBegin at begins
  split at begins
  next r n =>
    split at begins
    next room => exact ⟨fun _ _ _ => room, fun _ is => (nomatch (Option.some.inj begins).trans is)⟩
    next => exact nomatch begins
  next => exact other begins (fun _ _ => nofun) fun _ => nofun
  next =>
    split at begins
    next is => exact Option.some.inj begins ▸ State.stateObjection_passed is
    next => exact nomatch begins
  next kind peer r _ =>
    split at begins
    · exact Option.some.inj begins ▸ TransferKind.frame_passed s kind _
    · split at begins <;> exact nomatch begins
  next kind p _ => exact Option.some.inj begins ▸ TransferKind.frame_passed s kind p
  next => exact other begins (fun _ _ => nofun) fun _ => nofun
  next => exact other begins (fun _ _ => nofun) fun _ => nofun
  next r offset mask closeAfter source =>
    split at begins
    next none =>
      refine ⟨fun _ _ is => (nomatch (Option.some.inj begins).trans is), fun u is => ?_⟩
      have fields := Frame.update.inj ((Option.some.inj begins).trans is)
      subst fields
      exact ⟨State.updateRefusal_none none, rfl⟩
    next => exact nomatch begins
  next => exact other begins (fun _ _ => nofun) fun _ => nofun
  next => exact other begins (fun _ _ => nofun) fun _ => nofun
  next => exact other begins (fun _ _ => nofun) fun _ => nofun
  next => exact other begins (fun _ _ => nofun) fun _ => nofun
  next => exact other begins (fun _ _ => nofun) fun _ => nofun
  next => exact other begins (fun _ _ => nofun) fun _ => nofun

theorem Chosen.passed {s t : State} {f : Frame} (h : Chosen s t) (passed : t.Passed f) : s.Passed f := by
  have count : t.budgetCount = s.budgetCount := by simp only [State.budgetCount, h.budget, h.now]
  have room : t.budgetRoom = s.budgetRoom := by simp only [State.budgetRoom, count]
  have replica (r : Region) : t.replica r = s.replica r := State.replica_congr h.replicas r
  exact ⟨fun r n is => room.symm.trans (passed.claim r n is), fun u is => replica u.region ▸ passed.update u is⟩

/-- Whatever the queues hold, the frame that begins has passed its check (R148, R149). -/
theorem State.chooseFrame_passed {own : Station} {q : QueueId} {f : Frame} (n : Nat) {s : State} (off : s.liu.transmitter = .off)
    (begins : (State.chooseFrame own n s).liu.transmitter = .sending q f) : s.Passed f := by
  induction n generalizing s with
  | zero => exact nomatch off.symm.trans begins
  | succ n ih =>
    unfold State.chooseFrame at begins
    split at begins
    next => exact nomatch off.symm.trans begins
    next head x choice =>
      have chosen := s.tryBegin_chosen own head x
      have passed (g : Frame) := State.tryBegin_passed (s := s) (own := own) (q := head) (x := x) (f := g)
      generalize s.tryBegin own head x = tried at begins chosen passed
      obtain ⟨v, result⟩ := tried
      cases result with
      | some g => exact (Transmitter.sending.inj begins).2 ▸ passed g rfl
      | none =>
        have settled := chosen.trans v.settleWaiting_chosen
        exact settled.passed (ih (settled.transmitter.trans off) begins)

/-! ## The access instant (R144, R145) -/

section Access

variable {t : Time} {own : Station} {q : QueueId} {x : Queued} {rest : List Queued} {f : Frame} {s v : State}

theorem State.chooseFrame_begins {n : Nat} (choice : s.liu.choice = some (q, x)) (begins : s.tryBegin own q x = (v, some f)) :
    State.chooseFrame own (n + 1) s = v.withLiu fun l => { l with transmitter := .sending q f } := by
  simp only [State.chooseFrame, choice, begins]

/-- A waiting station with `x` at the head of the queue that it chooses from (R148). -/
structure Waiting (own : Station) (q : QueueId) (x : Queued) (rest : List Queued) (s : State) : Prop where
  self : s.self = some own
  transmits : s.station.transmits = true
  off : s.liu.transmitter = .off
  replyWaiting : s.liu.replyWaiting = []
  originatedWaiting : s.liu.originatedWaiting = []
  queue : s.liu.queue q = x :: rest
  first : q = .originated → s.liu.reply = []

theorem Waiting.choice (h : Waiting own q x rest s) : s.liu.choice = some (q, x) := by
  have queue := h.queue
  cases q with
  | reply =>
    have queue' : s.liu.reply = x :: rest := queue
    simp only [Liu.choice, queue']
  | originated =>
    have queue' : s.liu.originated = x :: rest := queue
    simp only [Liu.choice, h.first rfl, queue']

theorem Waiting.access (h : Waiting own q x rest s) :
    s.access = if s.accessAt own ≤ s.now then State.chooseFrame own 512 s else s := by
  have settled : s.settleWaiting = s := by
    rw [State.settleWaiting, State.placeAllWaiting_of_none (q := .reply) h.replyWaiting,
      State.placeAllWaiting_of_none (q := .originated) h.originatedWaiting]
  have some_ : (s.liu.reply.isEmpty && s.liu.originated.isEmpty) = false := by
    have choice := h.choice
    rw [Bool.eq_false_iff]
    intro empty
    simp only [Bool.and_eq_true, List.isEmpty_iff] at empty
    simp [Liu.choice, empty.1, empty.2] at choice
  have waiting : s.accessTimer = .waiting := by
    simp only [State.accessTimer, h.off, h.transmits, some_, Bool.not_false, Bool.and_self, if_true]
  unfold State.access
  dsimp only
  rw [settled]
  simp only [h.self, waiting, decide_true, Bool.true_and, decide_eq_true_eq]

/-- Before its access instant a waiting station begins nothing (R145). -/
theorem Waiting.early (h : Waiting own q x rest (s.advance t)) (early : max s.now t < s.accessAt own) :
    (((s.advance t).access).conclude (s.advance t)).liu.transmitter = .off := by
  have form : (s.advance t).access = s.advance t := h.access.trans (if_neg (Nat.not_le.2 early))
  rw [form]
  exact ((Ranked.refl (p := False) (s.advance t)).conclude).transmitter.trans h.off

/-- At its access instant it begins the head frame, as its check fills it (R148, R149). -/
theorem Waiting.begins (h : Waiting own q x rest (s.advance t)) (due : s.accessAt own ≤ max s.now t) (quiet : s.notResyncing)
    (passes : (s.advance t).tryBegin own q x = (v, some f)) (kept : RegionsKept (s.advance t) v) :
    (((s.advance t).access).conclude (s.advance t)).liu.transmitter = .sending q f ∧
      (((s.advance t).access).conclude (s.advance t)).transfer = v.transfer := by
  have form : (s.advance t).access = v.withLiu fun l => { l with transmitter := .sending q f } :=
    (h.access.trans (if_pos due)).trans (State.chooseFrame_begins (n := 511) h.choice passes)
  rw [form]
  have concluded := State.conclude_commandOnly (s := v.withLiu fun l => { l with transmitter := .sending q f })
    (before := s.advance t) (kept.notResyncing quiet) (State.inStep_of_replicas kept.replicas)
  exact ⟨concluded.transmitter, concluded.transfer⟩

end Access

theorem State.tryBegin_update {s : State} {own : Station} {q : QueueId} {x : Queued} {r : Region} {offset : Nat}
    {mask : Option (BitVec 32)} {close : Bool} {source : UpdateSource} (is : x.item = .update r offset mask close source)
    (passes : s.updateRefusal r source = none) :
    s.tryBegin own q x = (s, some (s.updateFrame r offset mask close source)) := by
  simp only [State.tryBegin, is, passes]

/-- Settles O50. -/
theorem accessBeginsTheChosenFrame : Obligations.AccessBeginsTheChosenFrame := by
  refine ⟨fun t own q i m rest s powered self transmits quiet off replyWaiting originatedWaiting queue first => ?_,
    fun t q f s s' powered off next sends => ?_⟩
  · have waiting : Waiting own q { item := i, marked := m } rest (s.advance t) :=
      ⟨self, transmits, off, replyWaiting, originatedWaiting, queue, first⟩
    refine ⟨_, event_concluded powered, waiting.early, fun due => ?_⟩
    have begins {f : Frame} (passes : (s.advance t).tryBegin own q { item := i, marked := m } = (s.advance t, some f)) :=
      (waiting.begins due quiet passes (.refl _)).1
    refine ⟨fun r is => ?_, fun r b is => ?_, fun r n is room => ?_, fun r off mask close data is current => ?_,
      fun r off close src o n is current source => ?_, fun is => ?_, fun c r a is => ?_, fun c r a l side is held => ?_,
      fun k peer r is current => ?_⟩
    · subst is
      exact begins rfl
    · subst is
      exact begins rfl
    · subst is
      exact begins (if_pos room)
    · subst is
      have current' : (s.advance t).isCurrent r = true := beq_iff_eq.2 current
      have passes : (s.advance t).updateRefusal r (.bytes data) = none := by simp [State.updateRefusal, current']
      exact begins (State.tryBegin_update rfl passes)
    · subst is
      have current' : (s.advance t).isCurrent r = true := beq_iff_eq.2 current
      have source' : (s.advance t).isCurrent src = true := beq_iff_eq.2 source
      have passes : (s.advance t).updateRefusal r (.replica src o n) = none := by simp [State.updateRefusal, current', source']
      exact begins (State.tryBegin_update rfl passes)
    · subst is
      exact begins rfl
    · subst is
      exact begins rfl
    · subst is
      have held' : ((s.advance t).entry r).state = .held own l side := held
      have objects : (s.advance t).stateObjection own c r = some (.object c r .held own (s.replica r).version) := by
        simp only [State.stateObjection, held', if_true]
        rfl
      exact begins (by simp only [State.tryBegin, objects])
    · subst is
      have current' : (s.advance t).isCurrent r = true := beq_iff_eq.2 current
      exact congrArg Transfer.buffer (waiting.begins due quiet (if_pos current') ⟨⟨rfl, rfl, rfl, rfl, rfl, rfl⟩, rfl⟩).2
  · have concluded : s' = ((s.advance t).access).conclude (s.advance t) :=
      (Host.Outcome.next.inj ((event_concluded (f := State.access) powered).symm.trans next)).symm
    have sending : (s.advance t).access.liu.transmitter = .sending q f := by
      rw [← ((Ranked.refl (p := False) (s.advance t).access).conclude (before := s.advance t)).transmitter, ← concluded]
      exact sends
    have settled := (s.advance t).settleWaiting_chosen
    have station : (s.advance t).settleWaiting.station = s.station :=
      ((State.placeAllWaiting_lineOnly _ _).trans (State.placeAllWaiting_lineOnly _ _)).station
    have off' := settled.transmitter.trans off
    unfold State.access at sending
    dsimp only at sending
    generalize (s.advance t).settleWaiting = v at sending settled station off'
    split at sending
    next own _ =>
      split at sending
      next asked =>
        have passed := settled.passed (State.chooseFrame_passed 512 off' sending)
        simp only [Bool.and_eq_true, decide_eq_true_eq] at asked
        have transmits : v.station.transmits = true := by
          by_contra no
          have idle : v.accessTimer = .idle := by simp [State.accessTimer, off', no]
          exact nomatch idle.symm.trans asked.1
        exact ⟨(congrArg StationState.transmits station).symm.trans transmits, passed.claim, passed.update⟩
      next => exact nomatch off'.symm.trans sending
    next => exact nomatch off'.symm.trans sending

end Sys2Proof.Machine
end

section
/-! PROOF. The receiver reads back every frame of good form, and no frame that a jam cuts (R138 to R141, R150). -/

-- One declaration at a time: side by side, the case splits of these proofs want more threads than the memory limit allows.
set_option Elab.async false

namespace Sys2Proof.Machine

/-! ## Half-bits, bits and bytes (R138, R139) -/

@[simp] theorem bitsOf_nil : bitsOf [] = [] := rfl

theorem bitsOf_cons (b : Byte) (bs : List Byte) : bitsOf (b :: bs) = byteBits b ++ bitsOf bs := rfl

theorem readBits_levels (bits : List Bool) (more : List Level) :
    readBits (bits.flatMap bitLevels ++ more) = bits ++ readBits more := by
  induction bits with
  | nil => rfl
  | cons bit bits ih => cases bit <;> simp [bitLevels, readBits, ih]

/-- A frame that state A cuts short is read to a whole bit: the half-bit before the cut is the first half of a bit that is read
right, or of none. -/
theorem readBits_cut (bits : List Bool) (n : Nat) (rest : List Level) :
    ∃ k, k ≤ (n + 1) / 2 ∧
      readBits ((bits.flatMap bitLevels).take n ++ .a :: .a :: .a :: rest) = bits.take k := by
  induction bits generalizing n with
  | nil => exact ⟨0, Nat.zero_le _, by simp [readBits]⟩
  | cons bit bits ih =>
    match n with
    | 0 => exact ⟨0, Nat.zero_le _, by simp [readBits]⟩
    | 1 =>
      cases bit with
      | true => exact ⟨0, Nat.zero_le _, by simp [bitLevels, readBits]⟩
      | false => exact ⟨1, Nat.le_refl _, by simp [bitLevels, readBits]⟩
    | n + 2 =>
      obtain ⟨k, most, read⟩ := ih n
      refine ⟨k + 1, by omega, ?_⟩
      cases bit <;> simp [bitLevels, readBits, read]

theorem byteOfBits_byteBits (b : Byte) :
    byteOfBits (b.getLsbD 7) (b.getLsbD 6) (b.getLsbD 5) (b.getLsbD 4) (b.getLsbD 3) (b.getLsbD 2) (b.getLsbD 1)
      (b.getLsbD 0) = b := by
  revert b
  decide +kernel

theorem readByteRun_bitsOf (bs : List Byte) (more : List Bool) :
    readByteRun (bitsOf bs ++ more) = bs ++ readByteRun more := by
  induction bs with
  | nil => rfl
  | cons b bs ih => simp only [bitsOf_cons, byteBits, List.cons_append, List.nil_append, readByteRun, byteOfBits_byteBits, ih]

/-- Fewer bits than a byte's give no byte. -/
theorem readByteRun_short {bits : List Bool} (short : bits.length < 8) : readByteRun bits = [] := by
  unfold readByteRun
  split
  · simp at short
    omega
  · rfl

theorem readByteRun_take (bs : List Byte) (k : Nat) : readByteRun ((bitsOf bs).take k) = bs.take (k / 8) := by
  induction bs generalizing k with
  | nil => simp [readByteRun]
  | cons b bs ih =>
    obtain short | ⟨n, rfl⟩ : k < 8 ∨ ∃ n, k = 8 + n := by
      rcases Nat.lt_or_ge k 8 with short | long
      · exact .inl short
      · exact .inr ⟨k - 8, by omega⟩
    · rw [readByteRun_short (by rw [List.length_take]; omega), show k / 8 = 0 by omega, List.take_zero]
    · have whole : (bitsOf (b :: bs)).take (8 + n) = bitsOf [b] ++ (bitsOf bs).take n := by
        simp [bitsOf_cons, byteBits, Nat.add_comm 8 n]
      rw [whole, readByteRun_bitsOf, ih, show (8 + n) / 8 = n / 8 + 1 by omega]
      rfl

/-! ## Fields (7.2) -/

theorem stationOf_stationByte (x : Station) : stationOf (stationByte x) = some x := by revert x; decide

theorem lowNibble_stationByte (x : Station) : lowNibble (stationByte x) = x := by revert x; decide

theorem regionOf_regionByte (r : Region) : regionOf (regionByte r) = some r := by revert r; decide

theorem partOf_partByte (p : Part) : partOf (partByte p) = some p := by revert p; decide

theorem groupOf_first (g : Group) : groupOf (BitVec.ofNat 8 (8 * g.val)) = some g := by revert g; decide

theorem highNibble_nibbles (x y : Station) : highNibble (nibbles x y) = x := by revert x y; decide

theorem lowNibble_nibbles (x y : Station) : lowNibble (nibbles x y) = y := by revert x y; decide

theorem readReason_byte (why : ObjectReason) : readReason why.byte = some why := by cases why <;> rfl

theorem mask_of_bytes (m : BitVec 32) :
    word16 (m.extractLsb' 24 8) (m.extractLsb' 16 8) ++ word16 (m.extractLsb' 8 8) (m.extractLsb' 0 8) = m := by
  simp only [word16]
  ext i hi
  simp only [BitVec.getElem_append, BitVec.getElem_extractLsb']
  split <;> split <;> · rw [BitVec.getLsbD_eq_getElem (by omega)]; congr 1; omega

/-- The flags byte of an UPDATE: mask in bit 7, close-after in bit 6, the length below. -/
theorem flags_fields (masked closing : Bool) (n : Fin 64) :
    let b : Byte := BitVec.ofNat 8 ((if masked then 128 else 0) + (if closing then 64 else 0) + n.val)
    b.getLsbD 7 = masked ∧ b.getLsbD 6 = closing ∧ b.toNat % 64 = n.val := by
  revert masked closing n
  decide

/-- The first byte of a DIR entry: the shown state in bits 7–6, last owner present in bit 5, the station in bits 3–0. -/
theorem dirByte_fields (kind : Nat) (known : kind < 4) (owned : Bool) (x : Station) :
    let b : Byte := BitVec.ofNat 8 (64 * kind + (if owned then 32 else 0) + x.val)
    b.toNat / 64 = kind ∧ b.getLsbD 5 = owned ∧ lowNibble b = x := by
  revert kind owned x
  decide

/-! ## Payloads (7.2, R141) -/

theorem readUpdate_payload {u : Update} (good : u.goodForm = true) : readUpdate u.payload = some (.update u) := by
  have most : u.data.length < 64 := by
    simp only [Update.goodForm, Bool.and_eq_true, decide_eq_true_eq] at good
    omega
  obtain ⟨masked, closing, length⟩ := flags_fields u.mask.isSome u.closeAfter ⟨u.data.length, most⟩
  obtain ⟨r, v, off, mask, close, data⟩ := u
  cases mask <;>
    simp_all [Update.payload, bytes16, bytes32, readUpdate, readUpdateTail, regionOf_regionByte, word16_of_bytes,
      mask_of_bytes]

theorem readPart_payload {p : PartField} (good : p.goodForm = true) : readPart p.payload = some p := by
  have length : p.data.length = 32 := by simpa [PartField.goodForm] using good
  simp [PartField.payload, bytes16, readPart, stationOf_stationByte, regionOf_regionByte, partOf_partByte, word16_of_bytes,
    length]

/-- The first two bytes of a DIR entry. -/
def dirHead (e : DirField) : Byte × Byte :=
  match e.shown with
  | .free => (BitVec.ofNat 8 (64 * 0 + (if e.lastOwner.isSome then 32 else 0) + (0 : Station).val), 0)
  | .claimed c => (BitVec.ofNat 8 (64 * 1 + (if e.lastOwner.isSome then 32 else 0) + c.station.val), c.number)
  | .held x => (BitVec.ofNat 8 (64 * 2 + (if e.lastOwner.isSome then 32 else 0) + x.val), 0)
  | .settling => (BitVec.ofNat 8 (64 * 3 + (if e.lastOwner.isSome then 32 else 0) + (0 : Station).val), 0)

/-- The third byte of a DIR entry. -/
def lastOwnerByte (owner : Option Station) : Byte := (owner.map stationByte).getD 0

theorem dirField_bytes (e : DirField) :
    e.bytes = [(dirHead e).1, (dirHead e).2, lastOwnerByte e.lastOwner, e.version.extractLsb' 8 8,
      e.version.extractLsb' 0 8] := by
  obtain ⟨shown, owner, v⟩ := e
  cases shown <;> cases owner <;> simp [DirField.bytes, dirHead, bytes16, lastOwnerByte]

theorem dirField_bytes_length (e : DirField) : e.bytes.length = 5 := by rw [dirField_bytes]; rfl

/-- The last owner reads back under its flag. -/
theorem lastOwner_read (owner : Option Station) :
    (if owner.isSome then some (lowNibble (lastOwnerByte owner)) else none) = owner := by
  cases owner <;> simp [lastOwnerByte, lowNibble_stationByte]

theorem readDirField_bytes {e : DirField} (good : e.goodForm = true) :
    readDirField (dirHead e).1 (dirHead e).2 (lastOwnerByte e.lastOwner) (e.version.extractLsb' 8 8)
      (e.version.extractLsb' 0 8) = some e := by
  obtain ⟨shown, owner, v⟩ := e
  cases shown with
  | free =>
    obtain ⟨kind, owned, -⟩ := dirByte_fields 0 (by decide) owner.isSome 0
    simp only [dirHead, readDirField, kind, owned, lastOwner_read, word16_of_bytes, good, if_true]
  | claimed c =>
    obtain ⟨kind, owned, station⟩ := dirByte_fields 1 (by decide) owner.isSome c.station
    simp only [dirHead, readDirField, kind, owned, station, lastOwner_read, word16_of_bytes, good, if_true]
  | held x =>
    obtain ⟨kind, owned, station⟩ := dirByte_fields 2 (by decide) owner.isSome x
    simp only [dirHead, readDirField, kind, owned, station, lastOwner_read, word16_of_bytes, good, if_true]
  | settling =>
    obtain ⟨kind, owned, -⟩ := dirByte_fields 3 (by decide) owner.isSome 0
    simp only [dirHead, readDirField, kind, owned, lastOwner_read, word16_of_bytes, good, if_true]

theorem readDirFields_bytes {es : List DirField} (good : es.all DirField.goodForm = true) :
    readDirFields (es.flatMap DirField.bytes) = some es := by
  induction es with
  | nil => rfl
  | cons e es ih =>
    obtain ⟨here, others⟩ : e.goodForm = true ∧ es.all DirField.goodForm = true := by simpa using good
    simp only [List.flatMap_cons, dirField_bytes, List.cons_append, List.nil_append, readDirFields, readDirField_bytes here,
      ih others]

theorem readPayload_payload {f : Frame} (good : f.goodForm = true) : readPayload f.kindCode f.payload = some f := by
  cases f with
  | presence st held =>
    have most : ¬64 < held.toNat := by simpa [Frame.goodForm] using good
    cases st <;> simp [Frame.kindCode, Frame.payload, readPayload, readPresence, PresenceState.byte, most]
  | claim r n => simp [Frame.kindCode, Frame.payload, readPayload, readClaim, regionOf_regionByte]
  | object c r why owner v =>
    have fits : why = .claimed → v.toNat ≤ 255 := by simpa [Frame.goodForm, or_iff_not_imp_left] using good
    have form : ¬(why = .claimed ∧ 255 < v.toNat) := fun ⟨claimed, wide⟩ => absurd (fits claimed) (by omega)
    simp [Frame.kindCode, Frame.payload, readPayload, readObject, bytes16, regionOf_regionByte, readReason_byte,
      word16_of_bytes, highNibble_nibbles, lowNibble_nibbles, form]
  | update u => exact readUpdate_payload (by simpa [Frame.goodForm] using good)
  | renew r => simp [Frame.kindCode, Frame.payload, readPayload, readRegionField, regionOf_regionByte]
  | release r v =>
    simp [Frame.kindCode, Frame.payload, readPayload, readRelease, bytes16, regionOf_regionByte, word16_of_bytes]
  | refreshReq r => simp [Frame.kindCode, Frame.payload, readPayload, readRegionField, regionOf_regionByte]
  | refreshData p =>
    have part := readPart_payload (p := p) (by simpa [Frame.goodForm] using good)
    simp [Frame.kindCode, Frame.payload, readPayload, part]
  | joinReq => rfl
  | dir j g es =>
    obtain ⟨eight, each⟩ : es.length = 8 ∧ es.all DirField.goodForm = true := by simpa [Frame.goodForm] using good
    simp [Frame.kindCode, Frame.payload, readPayload, readDir, stationOf_stationByte, groupOf_first,
      readDirFields_bytes each, eight]
  | snap p =>
    have part := readPart_payload (p := p) (by simpa [Frame.goodForm] using good)
    simp [Frame.kindCode, Frame.payload, readPayload, part]
  | syncEnd j => simp [Frame.kindCode, Frame.payload, readPayload, stationOf_stationByte]
  | leave => rfl

/-- The longest payload is a DIR's (7.2). -/
theorem payload_length_le {f : Frame} (good : f.goodForm = true) : f.payload.length ≤ 42 := by
  cases f with
  | update u =>
    have most : u.data.length ≤ 32 := by
      simp only [Frame.goodForm, Update.goodForm, Bool.and_eq_true, decide_eq_true_eq] at good
      omega
    cases masked : u.mask <;> simp [Frame.payload, Update.payload, masked, bytes16, bytes32] <;> omega
  | refreshData p | snap p =>
    have length : p.data.length = 32 := by simpa [Frame.goodForm, PartField.goodForm] using good
    simp [Frame.payload, PartField.payload, bytes16, length]
  | dir j g es =>
    have eight : es.length = 8 := by
      simp only [Frame.goodForm, Bool.and_eq_true, beq_iff_eq] at good
      exact good.1
    simp [Frame.payload, List.length_flatMap, dirField_bytes_length, eight]
  | presence _ _ | claim _ _ | object _ _ _ _ _ | renew _ | release _ _ | refreshReq _ | joinReq | syncEnd _ | leave =>
    simp [Frame.payload, bytes16]

/-! ## Frames (R139 to R141) -/

theorem kindCode_le (f : Frame) : f.kindCode ≤ 12 := by cases f <;> simp [Frame.kindCode]

theorem header_kind (x : Station) (f : Frame) :
    (BitVec.ofNat 8 (16 * f.kindCode + x.val)).toNat / 16 = f.kindCode := by
  have := kindCode_le f
  rw [BitVec.toNat_ofNat]
  omega

theorem header_sender (x : Station) (f : Frame) : lowNibble (BitVec.ofNat 8 (16 * f.kindCode + x.val)) = x := by
  have := kindCode_le f
  ext
  simp only [lowNibble, BitVec.toNat_ofNat]
  omega

theorem header_length {f : Frame} (good : f.goodForm = true) : (BitVec.ofNat 8 f.payload.length).toNat = f.payload.length := by
  have := payload_length_le good
  rw [BitVec.toNat_ofNat]
  omega

theorem readFrame_frameBytes {x : Station} {f : Frame} (good : f.goodForm = true) :
    readFrame (frameBytes x f) = some (x, f) := by
  have most := payload_length_le good
  simp only [frameBytes, frameBody, List.cons_append, List.nil_append, readFrame, header_length good, List.take_left,
    List.drop_left, header_kind, header_sender, readPayload_payload good]
  rw [if_pos ⟨by omega, by simp [bytes16], trivial⟩]
  rfl

/-- The receiver takes the bytes that the header counts: what follows them is not the frame's (R139). -/
theorem receive_of_bytes {x : Station} {f : Frame} (good : f.goodForm = true) {levels : List Level} {more : List Byte}
    (read : readByteRun (readBits levels) = startMark :: (frameBytes x f ++ more)) : receive levels = some (x, f) := by
  have bytes := readFrame_frameBytes (x := x) good
  simp only [frameBytes, frameBody, List.cons_append, List.nil_append] at read bytes
  rw [receive, read]
  simp only [if_true, header_length good]
  rwa [List.take_left' (by simp [bytes16])]

theorem receive_transmission {x : Station} {f : Frame} (good : f.goodForm = true) (more : List Level) :
    receive (transmission x f ++ more) = some (x, f) := by
  have read := readByteRun_bitsOf (startMark :: frameBytes x f) (readBits more)
  rw [List.cons_append] at read
  exact receive_of_bytes good (by rw [transmission, readBits_levels, read])

/-- Fewer bytes than the header counts are no frame (R139). -/
theorem receive_of_fewBytes {x : Station} {f : Frame} (good : f.goodForm = true) {levels : List Level} {m : Nat}
    (few : m < 5 + f.payload.length)
    (read : readByteRun (readBits levels) = (startMark :: frameBytes x f).take m) : receive levels = none := by
  rw [receive, read]
  match m with
  | 0 | 1 | 2 => rfl
  | m + 3 =>
    simp only [frameBytes, frameBody, List.cons_append, List.nil_append, List.take_succ_cons, if_true, readFrame,
      header_length good]
    refine if_neg fun ⟨_, whole, _⟩ => ?_
    simp only [List.length_take, List.length_append] at whole
    omega

/-- A jam that cuts a frame before its last bit leaves fewer bytes than the header counts (R139, R150). -/
theorem receive_cut {x : Station} {f : Frame} (good : f.goodForm = true) {n : Nat}
    (cut : n + 2 ≤ (transmission x f).length) (rest : List Level) :
    receive ((transmission x f).take n ++ jam ++ rest) = none := by
  rw [transmission_length] at cut
  obtain ⟨k, most, read⟩ :=
    readBits_cut (bitsOf (startMark :: frameBytes x f)) n (List.replicate 29 .a ++ rest)
  refine receive_of_fewBytes (x := x) good (m := k / 8) (by omega) ?_
  rw [← readByteRun_take, ← read, List.append_assoc]
  rfl

/-! ## The commands of a frame's activity -/

theorem receivedCommands_frame {x : Station} {f : Frame} (good : f.goodForm = true) (began : Time) (more : List Level) :
    receivedCommands began (transmission x f ++ more) =
      arrivalCommand (began + f.lineTime) x f ::
        if began + f.lineTime < began + halfBitsTime (transmission x f ++ more).length then
          [.lineActivityDeferral (began + f.lineTime) (began + halfBitsTime (transmission x f ++ more).length)]
        else [] := by
  have whole : isGlitch (transmission x f ++ more) = false := by
    simp only [isGlitch, List.length_append, transmission_length, decide_eq_false_iff_not]
    omega
  simp only [receivedCommands, whole, receive_transmission good, Bool.false_eq_true, if_false]

theorem lineTime_eq (f : Frame) : f.lineTime = 1000 * (5 + f.payload.length) := by
  show (1000 * (4 + f.payload.length + 1) : Nat) = _
  omega

/-- Settles O59: bit by bit, byte by byte and field by field the receiver reads back what was sent; a cut leaves fewer bytes
than the header counts. -/
theorem transmittedFramesAreReceived : Obligations.TransmittedFramesAreReceived := by
  intro x f good
  refine ⟨?_, fun began more => ?_, fun began => ?_, fun n rest cut => receive_cut good cut rest⟩
  · simpa using receive_transmission (x := x) good []
  · rw [receivedCommands_frame good, lineTime_eq]
    rfl
  · have alone := receivedCommands_frame (x := x) good began []
    simpa only [List.append_nil, halfBitsTime_transmission, Nat.lt_irrefl, if_false, lineTime_eq] using alone

end Sys2Proof.Machine
end

section
/-! PROOF. Collisions: the read-back, the jam, the transmit failure and the isolation at the eighth in a row (R117, R150 to R152,
R157). -/

-- One declaration at a time: side by side, the case splits of these proofs want more threads than the memory limit allows.
set_option Elab.async false

namespace Sys2Proof.Machine

/-! ## Of two frames, one at least reads a mismatch (R150) -/

/-- A frame that the line reads without mismatch stands at its head. -/
theorem begins_of_no_mismatch {own line : List Level} (fits : own.length ≤ line.length)
    (reads : firstMismatch own line = none) : ∃ more, line = own ++ more := by
  have whole : own = line.take own.length := by
    simpa only [List.take_of_length_le fits] using firstMismatch_eq_none_iff.1 reads
  have split := List.take_append_drop own.length line
  rw [← whole] at split
  exact ⟨_, split.symm⟩

/-- The line reads as one frame of good form at most. -/
theorem frames_mismatch {x y : Station} {f g : Frame} {line : List Level} (goodF : f.goodForm = true)
    (goodG : g.goodForm = true) (differ : (x, f) ≠ (y, g)) (fitsF : (transmission x f).length ≤ line.length)
    (fitsG : (transmission y g).length ≤ line.length) :
    firstMismatch (transmission x f) line ≠ none ∨ firstMismatch (transmission y g) line ≠ none := by
  by_contra silent
  obtain ⟨readsF, readsG⟩ : firstMismatch (transmission x f) line = none ∧ firstMismatch (transmission y g) line = none := by
    simpa only [not_or, not_not] using silent
  obtain ⟨moreF, isF⟩ := begins_of_no_mismatch fitsF readsF
  obtain ⟨moreG, isG⟩ := begins_of_no_mismatch fitsG readsG
  refine differ (Option.some.inj ?_)
  calc some (x, f) = receive line := by rw [isF, receive_transmission goodF]
    _ = some (y, g) := by rw [isG, receive_transmission goodG]

/-- The collision is taken at the end of the first half-bit that reads otherwise (R150; log 61). -/
theorem State.readBack_collision {q : QueueId} {f : Frame} {own : Station} {began : Time} {heard : List Level} {n : Nat}
    {sent read : Level} {s : State} (sends : s.liu.transmitter = .sending q f) (self : s.self = some own)
    (before : heard.take n = (transmission own f).take n) (drives : (transmission own f)[n]? = some sent)
    (reads : heard[n]? = some read) (differ : sent ≠ read) :
    s.readBack began heard = some (.collision (began + (n + 1) * 125 / 2)) := by
  have driven : s.drives = transmission own f := by simp only [State.drives, sends, self]
  have first := firstMismatch_eq_some_iff.2 ⟨before.symm, sent, read, drives, reads, differ⟩
  simp only [State.readBack, sends, driven, first, Option.map_some]
  rfl

/-! ## The transmit failure (R151, R152) -/

/-- A transmit failure is counted, with the transmitter as `after` (R152). -/
def State.failureCounted (s : State) (after : Transmitter) : State :=
  s.raiseTxFailures.withLiu fun l => { l with transmitter := after, failures := l.failures + 1 }

theorem State.queue_failureCounted (s : State) (after : Transmitter) (q : QueueId) :
    (s.failureCounted after).liu.queue q = s.liu.queue q := by cases q <;> rfl

theorem State.keepOrWithdraw_of_head {s : State} {q : QueueId} {i : Queued} {rest : List Queued}
    (head : s.liu.queue q = i :: rest) :
    s.keepOrWithdraw q =
      if i.marked then s.dropHead q
      else if i.item.objectionDue s.now then (s.dropHead q).raiseObjectionsWithdrawn else s := by
  simp only [State.keepOrWithdraw, head, List.head?_cons]

/-- What stands beside the queues and the counters when the frame of a transmit failure is kept or withdrawn. -/
structure FrameOnly (s t : State) : Prop extends LineOnly s t where
  unit : t.unit = s.unit
  failures : t.liu.failures = s.liu.failures
  transmitter : t.liu.transmitter = s.liu.transmitter

theorem State.dropHead_frameOnly (s : State) (q : QueueId) : FrameOnly s (s.dropHead q) :=
  ⟨⟨rfl, rfl, rfl, rfl, rfl, rfl, rfl, rfl, rfl, rfl, rfl⟩, rfl, by cases q <;> rfl, by cases q <;> rfl⟩

theorem State.keepOrWithdraw_frameOnly (s : State) (q : QueueId) : FrameOnly s (s.keepOrWithdraw q) := by
  have dropped := s.dropHead_frameOnly q
  have same : FrameOnly s s := ⟨.refl s, rfl, rfl, rfl⟩
  have counted : FrameOnly s (s.dropHead q).raiseObjectionsWithdrawn :=
    ⟨dropped.toLineOnly.trans ⟨rfl, rfl, rfl, rfl, rfl, rfl, rfl, rfl, rfl, rfl, rfl⟩, dropped.unit, dropped.failures,
      dropped.transmitter⟩
  unfold State.keepOrWithdraw
  split
  · split
    · exact dropped
    · split
      · exact counted
      · exact same
  · exact same

/-- With no command in execution there is no producer's part to play (R151). -/
theorem State.reportEnd_of_free {s : State} (free : s.running = none) (item : Option Item) : s.reportEnd item = s := by
  simp only [State.reportEnd, free]

theorem State.running_of_free {s : State} (free : ∀ run, s.unit ≠ .executing run) : s.running = none := by
  unfold State.running
  split
  · exact absurd ‹_› (free _)
  · rfl
  · rfl

theorem State.running_congr {s t : State} (same : t.unit = s.unit) : t.running = s.running := by
  simp only [State.running, same]

theorem State.addChanges_unit (s : State) (rs : List Region) : (s.addChanges rs).unit = s.unit := by
  induction rs generalizing s with
  | nil => rfl
  | cons r rs ih => exact ih (s.addChange r)

theorem State.unsyncReplicas_unit {s : State} (free : s.running = none) : s.unsyncReplicas.unit = s.unit := by
  have free' (reps : Vector Replica 64) (rs : List Region) :
      (({ s with replicas := reps } : State).addChanges rs).running = none :=
    (State.running_congr (State.addChanges_unit _ _)).trans free
  simp only [State.unsyncReplicas, free']
  exact State.addChanges_unit _ _

theorem State.emptyTransfer_unit (s : State) : s.emptyTransfer.unit = s.unit := rfl

theorem State.withdrawQueues_unit (s : State) : s.withdrawQueues.unit = s.unit := rfl

theorem State.leftLine_unit (s : State) (f : Membership → Membership) :
    ((({ s with budget := [] } : State).withMembership f).withLiu fun l => { l with failures := 0 }).unit = s.unit := rfl

/-- The command unit, without a command in execution, stands as it was when the station leaves the line (R98). -/
theorem State.leaveLine_unit {s : State} (free : s.running = none) : s.leaveLine.unit = s.unit := by
  have left : s.noticeLeftMember = s := by simp only [State.noticeLeftMember, free]
  have reset : (s.clearTable.resetDirectory Entry.unknown).unit = s.unit := State.addChanges_unit _ _
  have unsynced := State.unsyncReplicas_unit ((State.running_congr reset).trans free)
  unfold State.leaveLine
  rw [left, ite_self, State.leftLine_unit, State.withdrawQueues_unit, State.emptyTransfer_unit, unsynced, reset]

theorem State.stationSet_unit (s : State) (f : Membership → Membership) (st : StationState) :
    ((s.withMembership f).setStation st).unit = s.unit := rfl

theorem State.enterIsolated_unit {s : State} (free : s.running = none) : s.enterIsolated.unit = s.unit := by
  unfold State.enterIsolated
  rw [State.stationSet_unit, State.leaveLine_unit free]

/-- How a transmit failure ends: with the report to the producer, and with the isolation at the limit (R151, R152; log 9). -/
def State.failureReported (s : State) (item : Option Item) : State :=
  if Config.transmitFailureLimit ≤ s.liu.failures then
    if Config.reportBeforeIsolation s.freeCount then
      (({ s with freeCount := s.freeCount + 1 } : State).reportEnd item).isolateAtLimit
    else ({ s with freeCount := s.freeCount + 1 } : State).isolateAtLimit.reportEnd item
  else s.reportEnd item

theorem State.transmitFailure_eq (s : State) (q : QueueId) (after : Transmitter) :
    s.transmitFailure q after =
      ((s.failureCounted after).keepOrWithdraw q).failureReported ((s.liu.queue q).head?.map (·.item)) := rfl

theorem State.failureReported_below {s : State} (free : s.running = none) (few : s.liu.failures < 8) (item : Option Item) :
    s.failureReported item = s :=
  (if_neg (Nat.not_le.2 few)).trans (State.reportEnd_of_free free item)

theorem State.isolateAtLimit_limit {s : State} (limit : Config.transmitFailureLimit ≤ s.liu.failures)
    (transmits : s.station.transmits = true) : s.isolateAtLimit = s.enterIsolated := by
  simp only [State.isolateAtLimit, limit, transmits, decide_true, Bool.and_self, if_true]

theorem State.failureReported_limit {s : State} (free : s.running = none) (many : Config.transmitFailureLimit ≤ s.liu.failures)
    (transmits : s.station.transmits = true) (item : Option Item) :
    s.failureReported item = ({ s with freeCount := s.freeCount + 1 } : State).enterIsolated := by
  refine (if_pos many).trans ?_
  have free' : ({ s with freeCount := s.freeCount + 1 } : State).running = none := free
  have isolates : ({ s with freeCount := s.freeCount + 1 } : State).isolateAtLimit =
      ({ s with freeCount := s.freeCount + 1 } : State).enterIsolated := State.isolateAtLimit_limit many transmits
  generalize ({ s with freeCount := s.freeCount + 1 } : State) = u at free' isolates
  have isolated : u.enterIsolated.running = none := (State.running_congr (State.enterIsolated_unit free')).trans free'
  rw [State.reportEnd_of_free free', isolates, State.reportEnd_of_free isolated, ite_self]

/-- Below the eighth in a row a transmit failure is counted, and its frame kept or withdrawn (R151, R152). -/
theorem State.transmitFailure_below {s : State} {q : QueueId} {after : Transmitter} (free : s.running = none)
    (few : s.liu.failures < 7) :
    s.transmitFailure q after = (s.failureCounted after).keepOrWithdraw q := by
  have kept := (s.failureCounted after).keepOrWithdraw_frameOnly q
  have failures : ((s.failureCounted after).keepOrWithdraw q).liu.failures = s.liu.failures + 1 := kept.failures
  rw [State.transmitFailure_eq]
  exact State.failureReported_below ((State.running_congr kept.unit).trans free) (by omega) _

/-- What the isolation of a station whose transmitter sends nothing leaves (R117). -/
structure Isolated (s t : State) : Prop where
  station : t.station = .isolated
  faultCause : t.membership.faultCause = .transmitFailures
  isolationTimer : t.membership.isolationTimer = some (s.now + 50000000)
  failures : t.liu.failures = 0
  drained : t.liu.Drained
  directory : ∀ r, t.entry r = Entry.unknown
  table : ∀ x, t.member x = MemberEntry.absent

theorem State.enterIsolated_isolated {s : State} (ground : ∀ q, s.liu.flying q = false) : Isolated s s.enterIsolated := by
  have line := LineOnly.of_core_eq s.core_enterIsolated
  have drained := State.leaveLine_drained ground
  exact ⟨line.station, line.faultCause, (congrArg Membership.isolationTimer line.membership), rfl,
    ⟨drained.reply, drained.originated, drained.replyWaiting, drained.originatedWaiting⟩,
    fun r => (line.entry r).trans (s.core.entry_offLine r), fun x => (line.member x).trans (s.core.member_offLine x)⟩

/-- The eighth in a row isolates a station that transmits (R117, R152). -/
theorem State.transmitFailure_eighth {s : State} {q : QueueId} {ends : Time} (free : s.running = none)
    (many : 7 ≤ s.liu.failures) (transmits : s.station.transmits = true) :
    Isolated s (s.transmitFailure q (.jamming ends)) := by
  have kept := (s.failureCounted (.jamming ends)).keepOrWithdraw_frameOnly q
  have failures : ((s.failureCounted (.jamming ends)).keepOrWithdraw q).liu.failures = s.liu.failures + 1 := kept.failures
  have station : ((s.failureCounted (.jamming ends)).keepOrWithdraw q).station = s.station := kept.station
  have now : ((s.failureCounted (.jamming ends)).keepOrWithdraw q).now = s.now := kept.now
  have jams : ((s.failureCounted (.jamming ends)).keepOrWithdraw q).liu.transmitter = .jamming ends := kept.transmitter
  have free' := (State.running_congr kept.unit).trans free
  rw [State.transmitFailure_eq]
  generalize (s.failureCounted (.jamming ends)).keepOrWithdraw q = k at failures station now jams free'
  have limit : Config.transmitFailureLimit ≤ k.liu.failures := failures ▸ Nat.succ_le_succ many
  rw [State.failureReported_limit free' limit ((congrArg StationState.transmits station).trans transmits)]
  have ground (p : QueueId) : k.liu.flying p = false := by simp only [Liu.flying, jams]
  have isolated := State.enterIsolated_isolated (s := { k with freeCount := k.freeCount + 1 }) ground
  exact { isolated with isolationTimer := isolated.isolationTimer.trans (by rw [← now]) }

/-! ## The collision (R150 to R152) -/

/-- The frame of a transmit failure below the eighth in a row: withdrawn when it is marked, and otherwise at the head of its
queue for its retry, unless it is an OBJECT past its deadline (R151, R157, R158). -/
theorem State.queue_keepOrWithdraw {s : State} {q : QueueId} {i : Queued} {rest : List Queued} (head : s.liu.queue q = i :: rest) :
    (i.marked = true → (s.keepOrWithdraw q).liu.queue q = rest) ∧
      (i.marked = false → (∀ c r b a, i.item ≠ .object c r b a) → (s.keepOrWithdraw q).liu.queue q = i :: rest) := by
  rw [State.keepOrWithdraw_of_head head]
  refine ⟨fun marked => ?_, fun unmarked other => ?_⟩
  · have dropped : (s.dropHead q).liu.queue q = rest :=
      (Liu.queue_setQueue_self _ _ _).trans (congrArg List.tail head)
    rwa [if_pos marked]
  · have due : i.item.objectionDue s.now = false := by
      unfold Item.objectionDue
      split
      · exact absurd ‹_› (other _ _ _ _)
      · rfl
    simpa only [unmarked, due, Bool.false_eq_true, if_false] using head

theorem collision_follows {t : Time} {q : QueueId} {f : Frame} {i : Queued} {rest : List Queued} {s : State}
    (powered : s.powered = true) (flies : s.inFlight q f i rest) :
    exec (.collision t) s =
      .next (((s.advance t).transmitFailure q (.jamming (max s.now t + 2000))).conclude (s.advance t)) := by
  have sends : (s.advance t).liu.transmitter = .sending q f := flies.1
  have form : (s.advance t).collide = (s.advance t).transmitFailure q (.jamming (max s.now t + 2000)) := by
    simp only [State.collide, sends, halfBitsTime_jam]
    rfl
  exact (event_concluded powered).trans (by rw [form])

/-- Settles O51. -/
theorem collisionCountsAndIsolates : Obligations.CollisionCountsAndIsolates := by
  refine ⟨fun x y f g line goodF goodG differ fitsF fitsG => frames_mismatch goodF goodG differ fitsF fitsG,
    fun q f own began heard n sent read s sends self before drives reads differ =>
      State.readBack_collision sends self before drives reads differ,
    fun t q f i rest s powered flies quiet free => ?_⟩
  have none : (s.advance t).running = none := State.running_of_free free
  have waits : (s.advance t).noneWaits := State.noneWaits_of_free free
  have head : (s.advance t).liu.queue q = i :: rest := flies.2
  have ranked := (Ranked.transmitFailure (s.advance t) q (.jamming (max s.now t + 2000))).conclude (before := s.advance t)
  refine ⟨_, collision_follows powered flies, ranked.transmitter, ?_, ranked.txFailures, fun few => ?_,
    fun many transmits => ?_⟩
  · have jams := ranked.transmitter
    generalize ((s.advance t).transmitFailure q (.jamming (max s.now t + 2000))).conclude (s.advance t) = s' at jams
    have jams' : s'.liu.transmitter = .jamming (max s.now t + 2000) := jams
    simp only [State.drives, jams']
    rfl
  · have kept := ((s.advance t).failureCounted (.jamming (max s.now t + 2000))).keepOrWithdraw_frameOnly q
    have queues := State.queue_keepOrWithdraw
      ((State.queue_failureCounted (s.advance t) (.jamming (max s.now t + 2000)) q).trans head)
    rw [State.transmitFailure_below none few]
    generalize ((s.advance t).failureCounted (.jamming (max s.now t + 2000))).keepOrWithdraw q = k at kept queues
    have station : k.station = s.station := kept.station
    have step : k.inStep (s.advance t) := State.inStep_of_replicas kept.replicas
    have quiet' : k.notResyncing := by
      rw [State.notResyncing, station, show k.membership = s.membership from kept.membership]
      exact quiet
    have only := State.conclude_commandOnly quiet' step
    have stands (stays : s.station ≠ .leaving) : k.conclude (s.advance t) = k :=
      State.conclude_eq step waits (by rwa [station])
    exact ⟨only.failures.trans kept.failures, only.station.trans station, only.directory.trans kept.directory,
      fun marked stays => by rw [stands stays]; exact queues.1 marked,
      fun unmarked other stays => by rw [stands stays]; exact queues.2 unmarked other⟩
  · have isolated := State.transmitFailure_eighth (q := q) (ends := max s.now t + 2000) none many transmits
    generalize (s.advance t).transmitFailure q (.jamming (max s.now t + 2000)) = k at isolated
    have step : k.inStep (s.advance t) := .inr (.inr (.inr (by rw [isolated.station]; exact nofun)))
    rw [State.conclude_eq step waits (by rw [isolated.station]; exact nofun)]
    exact ⟨isolated.station, isolated.faultCause, isolated.failures, isolated.isolationTimer, isolated.drained.reply,
      isolated.drained.originated, isolated.directory, isolated.table⟩

end Sys2Proof.Machine
end
